-- ==== Sys2Proof/Word.lean ====
section
/-! DEFINITION. The widths of MIC-1 CORE's values (00_scope.md R6, R9). -/

namespace Sys2Proof

/-- A 32-bit word: the datapath registers, the B bus, the ALU result, the C bus. -/
abbrev Word := BitVec 32

/-- A byte: MBR and one location of main memory. -/
abbrev Byte := BitVec 8

/-- A control-store index: MPC and MPC_next. -/
abbrev Slot := BitVec 9

/-- A microinstruction word: MIR and one slot of the control store. -/
abbrev MicroWord := BitVec 36

end Sys2Proof
end

