-- ==== Sys2Proof/Config.lean ====
section
/-! DEFINITION. What is fixed for one machine: the two open parameters of 00_scope.md R5 with their
reference values, and the sizes and the sentinel of R6. MIC-1 CORE leaves no value free (log entry 6), so
there is no opaque constant here. -/

namespace Sys2Proof.Config

/-- The two parameters the source leaves open (R5; 92_eei_decisions.md P1, P2). -/
structure Params where
  /-- CAP, main-memory capacity in bytes. -/
  cap : Nat
  /-- ORIGIN, the byte address where the program body is loaded. -/
  origin : Nat
  deriving DecidableEq, Repr

/-- The constraint on CAP (R5; D7). -/
abbrev CapOk (cap : Nat) : Prop := 4 ≤ cap ∧ cap ≤ 2 ^ 32 ∧ cap % 4 = 0

/-- The constraint on both parameters (R5; D7, D15): the launch premise `Params` of R177. -/
abbrev Params.Ok (p : Params) : Prop := CapOk p.cap ∧ 20 ≤ p.origin ∧ p.origin ≤ p.cap

/-- The reference values: CAP = 10,000,000 and ORIGIN = 0x0401 (R5). -/
def reference : Params := { cap := 10000000, origin := 0x0401 }

/-- MBR = 0xFF ends the run (R6; 46_cycle_engine.md R132). -/
def haltSentinel : Byte := 0xFF#8

/-- Bytes in one record of a control-store image (R6; 70_reset_and_hazards.md R154). -/
def recordBytes : Nat := 8

/-- Slots of the control store (R6). -/
def slots : Nat := 512

/-- Bytes of the initialization block (R6; 70_reset_and_hazards.md R156). -/
def initBlockBytes : Nat := 20

end Sys2Proof.Config
end

