-- ==== Sys2Proof/Syntax.lean ====
section
/-! DEFINITION. The rows of spec/opcode_table.json, one constructor each (30_encoding.md R56 to R62).
A row is a field code or a field bit of the one 36-bit format; a whole microinstruction is the combination
of one B row, one ALU row, one SHIFT row, any subset of the C, MEM and JUMP rows, and one NEXT row
(30_encoding.md, opening), which the model holds as the list of its rows (log entry 1). -/

namespace Sys2Proof

/-- One row of the opcode table. Only `mpcNext` has an operand, the 9-bit MPC_next; the operands of every
other row are registers that the row itself names (30_encoding.md R63). -/
inductive Instr where
  /-- B.MDR (R69). -/
  | bMdr
  /-- B.PC (R70). -/
  | bPc
  /-- B.MBR (R71). -/
  | bMbr
  /-- B.MBRU (R72). -/
  | bMbru
  /-- B.SP (R73). -/
  | bSp
  /-- B.LV (R74). -/
  | bLv
  /-- B.CPP (R75). -/
  | bCpp
  /-- B.TOS (R76). -/
  | bTos
  /-- B.OPC (R77). -/
  | bOpc
  /-- B.INVALID_9 (R78). -/
  | bInvalid9
  /-- B.INVALID_10 (R78). -/
  | bInvalid10
  /-- B.INVALID_11 (R78). -/
  | bInvalid11
  /-- B.INVALID_12 (R78). -/
  | bInvalid12
  /-- B.INVALID_13 (R78). -/
  | bInvalid13
  /-- B.INVALID_14 (R78). -/
  | bInvalid14
  /-- B.INVALID_15 (R78). -/
  | bInvalid15
  /-- ALU.INVALID_0 (R95). -/
  | aluInvalid0
  /-- ALU.INVALID_1 (R95). -/
  | aluInvalid1
  /-- ALU.INVALID_2 (R95). -/
  | aluInvalid2
  /-- ALU.INVALID_3 (R95). -/
  | aluInvalid3
  /-- ALU.INVALID_4 (R95). -/
  | aluInvalid4
  /-- ALU.INVALID_5 (R95). -/
  | aluInvalid5
  /-- ALU.INVALID_6 (R95). -/
  | aluInvalid6
  /-- ALU.INVALID_7 (R95). -/
  | aluInvalid7
  /-- ALU.INVALID_8 (R95). -/
  | aluInvalid8
  /-- ALU.INVALID_9 (R95). -/
  | aluInvalid9
  /-- ALU.INVALID_10 (R95). -/
  | aluInvalid10
  /-- ALU.INVALID_11 (R95). -/
  | aluInvalid11
  /-- ALU.AND (R80). -/
  | aluAnd
  /-- ALU.INVALID_13 (R95). -/
  | aluInvalid13
  /-- ALU.INVALID_14 (R95). -/
  | aluInvalid14
  /-- ALU.INVALID_15 (R95). -/
  | aluInvalid15
  /-- ALU.INVALID_16 (R95). -/
  | aluInvalid16
  /-- ALU.ONE (R81). -/
  | aluOne
  /-- ALU.MINUS1 (R82). -/
  | aluMinus1
  /-- ALU.INVALID_19 (R95). -/
  | aluInvalid19
  /-- ALU.B (R83). -/
  | aluB
  /-- ALU.INVALID_21 (R95). -/
  | aluInvalid21
  /-- ALU.INVALID_22 (R95). -/
  | aluInvalid22
  /-- ALU.INVALID_23 (R95). -/
  | aluInvalid23
  /-- ALU.H (R84). -/
  | aluH
  /-- ALU.INVALID_25 (R95). -/
  | aluInvalid25
  /-- ALU.NOTH (R85). -/
  | aluNotH
  /-- ALU.INVALID_27 (R95). -/
  | aluInvalid27
  /-- ALU.OR (R86). -/
  | aluOr
  /-- ALU.INVALID_29 (R95). -/
  | aluInvalid29
  /-- ALU.INVALID_30 (R95). -/
  | aluInvalid30
  /-- ALU.INVALID_31 (R95). -/
  | aluInvalid31
  /-- ALU.INVALID_32 (R95). -/
  | aluInvalid32
  /-- ALU.INVALID_33 (R95). -/
  | aluInvalid33
  /-- ALU.INVALID_34 (R95). -/
  | aluInvalid34
  /-- ALU.INVALID_35 (R95). -/
  | aluInvalid35
  /-- ALU.INVALID_36 (R95). -/
  | aluInvalid36
  /-- ALU.INVALID_37 (R95). -/
  | aluInvalid37
  /-- ALU.INVALID_38 (R95). -/
  | aluInvalid38
  /-- ALU.INVALID_39 (R95). -/
  | aluInvalid39
  /-- ALU.INVALID_40 (R95). -/
  | aluInvalid40
  /-- ALU.INVALID_41 (R95). -/
  | aluInvalid41
  /-- ALU.INVALID_42 (R95). -/
  | aluInvalid42
  /-- ALU.INVALID_43 (R95). -/
  | aluInvalid43
  /-- ALU.NOTB (R87). -/
  | aluNotB
  /-- ALU.INVALID_45 (R95). -/
  | aluInvalid45
  /-- ALU.INVALID_46 (R95). -/
  | aluInvalid46
  /-- ALU.INVALID_47 (R95). -/
  | aluInvalid47
  /-- ALU.INVALID_48 (R95). -/
  | aluInvalid48
  /-- ALU.INVALID_49 (R95). -/
  | aluInvalid49
  /-- ALU.INVALID_50 (R95). -/
  | aluInvalid50
  /-- ALU.INVALID_51 (R95). -/
  | aluInvalid51
  /-- ALU.INVALID_52 (R95). -/
  | aluInvalid52
  /-- ALU.INCB (R88). -/
  | aluIncB
  /-- ALU.DECB (R89). -/
  | aluDecB
  /-- ALU.INVALID_55 (R95). -/
  | aluInvalid55
  /-- ALU.INVALID_56 (R95). -/
  | aluInvalid56
  /-- ALU.INCH (R90). -/
  | aluIncH
  /-- ALU.INVALID_58 (R95). -/
  | aluInvalid58
  /-- ALU.NEGH (R91). -/
  | aluNegH
  /-- ALU.ADD (R92). -/
  | aluAdd
  /-- ALU.ADDINC (R93). -/
  | aluAddInc
  /-- ALU.INVALID_62 (R95). -/
  | aluInvalid62
  /-- ALU.SUB (R94). -/
  | aluSub
  /-- SHIFT.NOSHIFT (R98). -/
  | shiftNone
  /-- SHIFT.SLL8 (R99). -/
  | shiftSll8
  /-- SHIFT.SRL1 (R100). -/
  | shiftSrl1
  /-- SHIFT.INVALID_3 (R101). -/
  | shiftInvalid3
  /-- C.MAR (R105). -/
  | cMar
  /-- C.MDR (R106). -/
  | cMdr
  /-- C.PC (R107). -/
  | cPc
  /-- C.SP (R108). -/
  | cSp
  /-- C.LV (R109). -/
  | cLv
  /-- C.CPP (R110). -/
  | cCpp
  /-- C.TOS (R111). -/
  | cTos
  /-- C.OPC (R112). -/
  | cOpc
  /-- C.H (R113). -/
  | cH
  /-- MEM.fetch (R116). -/
  | memFetch
  /-- MEM.rd (R117). -/
  | memRd
  /-- MEM.wr (R118). -/
  | memWr
  /-- NEXT (R122). -/
  | mpcNext (base : Slot)
  /-- JUMP.JAMN (R123). -/
  | jumpJamn
  /-- JUMP.JAMZ (R124). -/
  | jumpJamz
  /-- JUMP.JMPC (R125). -/
  | jumpJmpc
  deriving DecidableEq, Repr

/-- A whole microinstruction: its rows, in the order in which the nine steps of a cycle
(46_cycle_engine.md R130) run them. -/
abbrev Microinstr := List Instr

end Sys2Proof
end

