-- ==== Sys2Proof/WellFormed.lean ====
section
/-! DEFINITION. When a list of rows is a microinstruction (30_encoding.md, opening): one row of each code
field, any subset of the bit rows, one MPC_next value, in step order. Every single row is well formed: its
operand, if it has one, is nine bits wide by its type. -/

namespace Sys2Proof

/-- The place of a row in the cycle (46_cycle_engine.md R130): the B router, the ALU, the shifter, then the
nine C_MASK bits, the three MEM bits, the base of the next address and the three JUMP bits, each bit row at a
place of its own. -/
def Instr.rank : Instr → Nat
  | .bMdr | .bPc | .bMbr | .bMbru | .bSp | .bLv | .bCpp | .bTos
  | .bOpc | .bInvalid9 | .bInvalid10 | .bInvalid11 | .bInvalid12 | .bInvalid13 | .bInvalid14 | .bInvalid15 => 0
  | .aluInvalid0 | .aluInvalid1 | .aluInvalid2 | .aluInvalid3 | .aluInvalid4 | .aluInvalid5 | .aluInvalid6 | .aluInvalid7
  | .aluInvalid8 | .aluInvalid9 | .aluInvalid10 | .aluInvalid11 | .aluAnd | .aluInvalid13 | .aluInvalid14 | .aluInvalid15
  | .aluInvalid16 | .aluOne | .aluMinus1 | .aluInvalid19 | .aluB | .aluInvalid21 | .aluInvalid22 | .aluInvalid23
  | .aluH | .aluInvalid25 | .aluNotH | .aluInvalid27 | .aluOr | .aluInvalid29 | .aluInvalid30 | .aluInvalid31
  | .aluInvalid32 | .aluInvalid33 | .aluInvalid34 | .aluInvalid35 | .aluInvalid36 | .aluInvalid37 | .aluInvalid38 | .aluInvalid39
  | .aluInvalid40 | .aluInvalid41 | .aluInvalid42 | .aluInvalid43 | .aluNotB | .aluInvalid45 | .aluInvalid46 | .aluInvalid47
  | .aluInvalid48 | .aluInvalid49 | .aluInvalid50 | .aluInvalid51 | .aluInvalid52 | .aluIncB | .aluDecB | .aluInvalid55
  | .aluInvalid56 | .aluIncH | .aluInvalid58 | .aluNegH | .aluAdd | .aluAddInc | .aluInvalid62 | .aluSub => 1
  | .shiftNone | .shiftSll8 | .shiftSrl1 | .shiftInvalid3 => 2
  | .cMar => 3
  | .cMdr => 4
  | .cPc => 5
  | .cSp => 6
  | .cLv => 7
  | .cCpp => 8
  | .cTos => 9
  | .cOpc => 10
  | .cH => 11
  | .memFetch => 12
  | .memRd => 13
  | .memWr => 14
  | .mpcNext _ => 15
  | .jumpJamn => 16
  | .jumpJamz => 17
  | .jumpJmpc => 18

/-- The rows stand in step order, so that no row of a code field and no bit row stands twice. -/
def inStepOrder : Microinstr → Bool
  | i :: j :: rest => decide (i.rank < j.rank) && inStepOrder (j :: rest)
  | _ => true

/-- Some row stands at place `k`. -/
def hasRank (k : Nat) (ops : Microinstr) : Bool := ops.any fun i => i.rank == k

/-- A whole microinstruction: in step order, with one B_SEL row, one ALU_OP row, one SHIFT row and one
MPC_next row. -/
def wellFormed (ops : Microinstr) : Bool :=
  inStepOrder ops && hasRank 0 ops && hasRank 1 ops && hasRank 2 ops && hasRank 15 ops

end Sys2Proof
end

