-- ==== Sys2Proof/Decode.lean ====
section
/-! DEFINITION. Decoding and encoding (30_encoding.md). `unpack` and `pack` are Decode and Encode of R53 and
R54; the rows of each field follow the code maps of R56 to R62; `decode` gives a word's rows in step order and
never fails (R53, R64); `decodeRecord` reads the 8-byte record of a control-store image
(70_reset_and_hazards.md R154), least significant byte first, and refuses a short one by name. -/

namespace Sys2Proof

/-- The seven fields of a microinstruction word (R52). -/
structure Fields where
  bSel    : BitVec 4
  mem     : BitVec 3
  cMask   : BitVec 9
  aluOp   : BitVec 6
  shift   : BitVec 2
  jump    : BitVec 3
  mpcNext : BitVec 9
  deriving DecidableEq, Repr

/-- Why bytes are no record of a control-store image. -/
inductive DecodeError where
  /-- Fewer than the eight bytes of a record (70_reset_and_hazards.md R154, R155). -/
  | shortRecord
  deriving DecidableEq, Repr

/-! ### Fields -/

/-- Decode of R53. -/
def unpack (w : MicroWord) : Fields where
  bSel    := w.extractLsb' 0 4
  mem     := w.extractLsb' 4 3
  cMask   := w.extractLsb' 7 9
  aluOp   := w.extractLsb' 16 6
  shift   := w.extractLsb' 22 2
  jump    := w.extractLsb' 24 3
  mpcNext := w.extractLsb' 27 9

/-- Encode of R54. -/
def pack (f : Fields) : MicroWord :=
  f.mpcNext.setWidth 36 <<< 27 ||| f.jump.setWidth 36 <<< 24 ||| f.shift.setWidth 36 <<< 22 |||
  f.aluOp.setWidth 36 <<< 16 ||| f.cMask.setWidth 36 <<< 7 ||| f.mem.setWidth 36 <<< 4 |||
  f.bSel.setWidth 36

/-! ### Rows of a field -/

/-- The row of a B_SEL code (R56). -/
def bRow (code : BitVec 4) : Instr :=
  match code.toNat with
  | 0 => .bMdr
  | 1 => .bPc
  | 2 => .bMbr
  | 3 => .bMbru
  | 4 => .bSp
  | 5 => .bLv
  | 6 => .bCpp
  | 7 => .bTos
  | 8 => .bOpc
  | 9 => .bInvalid9
  | 10 => .bInvalid10
  | 11 => .bInvalid11
  | 12 => .bInvalid12
  | 13 => .bInvalid13
  | 14 => .bInvalid14
  | _ => .bInvalid15

/-- The row of an ALU_OP code (R59; the 49 codes outside it are R95). -/
def aluRow (code : BitVec 6) : Instr :=
  match code.toNat with
  | 0 => .aluInvalid0
  | 1 => .aluInvalid1
  | 2 => .aluInvalid2
  | 3 => .aluInvalid3
  | 4 => .aluInvalid4
  | 5 => .aluInvalid5
  | 6 => .aluInvalid6
  | 7 => .aluInvalid7
  | 8 => .aluInvalid8
  | 9 => .aluInvalid9
  | 10 => .aluInvalid10
  | 11 => .aluInvalid11
  | 12 => .aluAnd
  | 13 => .aluInvalid13
  | 14 => .aluInvalid14
  | 15 => .aluInvalid15
  | 16 => .aluInvalid16
  | 17 => .aluOne
  | 18 => .aluMinus1
  | 19 => .aluInvalid19
  | 20 => .aluB
  | 21 => .aluInvalid21
  | 22 => .aluInvalid22
  | 23 => .aluInvalid23
  | 24 => .aluH
  | 25 => .aluInvalid25
  | 26 => .aluNotH
  | 27 => .aluInvalid27
  | 28 => .aluOr
  | 29 => .aluInvalid29
  | 30 => .aluInvalid30
  | 31 => .aluInvalid31
  | 32 => .aluInvalid32
  | 33 => .aluInvalid33
  | 34 => .aluInvalid34
  | 35 => .aluInvalid35
  | 36 => .aluInvalid36
  | 37 => .aluInvalid37
  | 38 => .aluInvalid38
  | 39 => .aluInvalid39
  | 40 => .aluInvalid40
  | 41 => .aluInvalid41
  | 42 => .aluInvalid42
  | 43 => .aluInvalid43
  | 44 => .aluNotB
  | 45 => .aluInvalid45
  | 46 => .aluInvalid46
  | 47 => .aluInvalid47
  | 48 => .aluInvalid48
  | 49 => .aluInvalid49
  | 50 => .aluInvalid50
  | 51 => .aluInvalid51
  | 52 => .aluInvalid52
  | 53 => .aluIncB
  | 54 => .aluDecB
  | 55 => .aluInvalid55
  | 56 => .aluInvalid56
  | 57 => .aluIncH
  | 58 => .aluInvalid58
  | 59 => .aluNegH
  | 60 => .aluAdd
  | 61 => .aluAddInc
  | 62 => .aluInvalid62
  | _ => .aluSub

/-- The row of a SHIFT code (R60). -/
def shiftRow (code : BitVec 2) : Instr :=
  match code.toNat with
  | 0 => .shiftNone
  | 1 => .shiftSll8
  | 2 => .shiftSrl1
  | _ => .shiftInvalid3

/-- A bit row stands in a microinstruction exactly when its bit is set. -/
def rowIf (bit : Bool) (i : Instr) : List Instr := if bit then [i] else []

/-- The rows of the C_MASK bits that are set (R58). -/
def cRows (bits : BitVec 9) : List Instr :=
  rowIf (bits.getLsbD 0) .cMar ++
  rowIf (bits.getLsbD 1) .cMdr ++
  rowIf (bits.getLsbD 2) .cPc ++
  rowIf (bits.getLsbD 3) .cSp ++
  rowIf (bits.getLsbD 4) .cLv ++
  rowIf (bits.getLsbD 5) .cCpp ++
  rowIf (bits.getLsbD 6) .cTos ++
  rowIf (bits.getLsbD 7) .cOpc ++
  rowIf (bits.getLsbD 8) .cH

/-- The rows of the MEM bits that are set (R57). -/
def memRows (bits : BitVec 3) : List Instr :=
  rowIf (bits.getLsbD 0) .memFetch ++
  rowIf (bits.getLsbD 1) .memRd ++
  rowIf (bits.getLsbD 2) .memWr

/-- The rows of the JUMP bits that are set (R61). -/
def jumpRows (bits : BitVec 3) : List Instr :=
  rowIf (bits.getLsbD 0) .jumpJamn ++
  rowIf (bits.getLsbD 1) .jumpJamz ++
  rowIf (bits.getLsbD 2) .jumpJmpc

/-! ### Decoding a word -/

/-- The rows that steps 3 to 6 of a cycle run: B router, ALU, shifter, write-back. -/
def datapathRows (f : Fields) : List Instr :=
  bRow f.bSel :: aluRow f.aluOp :: shiftRow f.shift :: cRows f.cMask

/-- The rows that step 8 of a cycle runs: the base next-address, then the JUMP bits (R61, R62). -/
def nextRows (f : Fields) : List Instr := Instr.mpcNext f.mpcNext :: jumpRows f.jump

/-- All rows of a field tuple, in step order. -/
def fieldRows (f : Fields) : Microinstr := datapathRows f ++ (memRows f.mem ++ nextRows f)

/-- The rows of a microinstruction word. Total: every 36-bit word is a microinstruction (R53, R64). -/
def decode (w : MicroWord) : Microinstr := fieldRows (unpack w)

/-! ### Decoding the bytes of a control-store image -/

/-- The word of an 8-byte record: its little-endian 64-bit value, bits 35:0
(70_reset_and_hazards.md R154; bits 63:36 are dropped, R55). -/
def recordWord (b0 b1 b2 b3 b4 b5 b6 b7 : Byte) : MicroWord :=
  (b0.setWidth 64 ||| b1.setWidth 64 <<< 8 ||| b2.setWidth 64 <<< 16 ||| b3.setWidth 64 <<< 24 |||
   b4.setWidth 64 <<< 32 ||| b5.setWidth 64 <<< 40 ||| b6.setWidth 64 <<< 48 |||
   b7.setWidth 64 <<< 56).setWidth 36

/-- Read one record from the front of a byte stream: its rows and the bytes after it. -/
def decodeRecord : List Byte → Except DecodeError (Microinstr × List Byte)
  | b0 :: b1 :: b2 :: b3 :: b4 :: b5 :: b6 :: b7 :: rest =>
      .ok (decode (recordWord b0 b1 b2 b3 b4 b5 b6 b7), rest)
  | _ => .error .shortRecord

/-! ### Encoding -/

/-- The bits a row contributes to a word: the "match" column of spec/opcode_table.json, and for the NEXT row
its operand at bits 35:27 (R62). -/
def rowMatch : Instr → MicroWord
  | .bMdr => 0x000000000#36
  | .bPc => 0x000000001#36
  | .bMbr => 0x000000002#36
  | .bMbru => 0x000000003#36
  | .bSp => 0x000000004#36
  | .bLv => 0x000000005#36
  | .bCpp => 0x000000006#36
  | .bTos => 0x000000007#36
  | .bOpc => 0x000000008#36
  | .bInvalid9 => 0x000000009#36
  | .bInvalid10 => 0x00000000A#36
  | .bInvalid11 => 0x00000000B#36
  | .bInvalid12 => 0x00000000C#36
  | .bInvalid13 => 0x00000000D#36
  | .bInvalid14 => 0x00000000E#36
  | .bInvalid15 => 0x00000000F#36
  | .aluInvalid0 => 0x000000000#36
  | .aluInvalid1 => 0x000010000#36
  | .aluInvalid2 => 0x000020000#36
  | .aluInvalid3 => 0x000030000#36
  | .aluInvalid4 => 0x000040000#36
  | .aluInvalid5 => 0x000050000#36
  | .aluInvalid6 => 0x000060000#36
  | .aluInvalid7 => 0x000070000#36
  | .aluInvalid8 => 0x000080000#36
  | .aluInvalid9 => 0x000090000#36
  | .aluInvalid10 => 0x0000A0000#36
  | .aluInvalid11 => 0x0000B0000#36
  | .aluAnd => 0x0000C0000#36
  | .aluInvalid13 => 0x0000D0000#36
  | .aluInvalid14 => 0x0000E0000#36
  | .aluInvalid15 => 0x0000F0000#36
  | .aluInvalid16 => 0x000100000#36
  | .aluOne => 0x000110000#36
  | .aluMinus1 => 0x000120000#36
  | .aluInvalid19 => 0x000130000#36
  | .aluB => 0x000140000#36
  | .aluInvalid21 => 0x000150000#36
  | .aluInvalid22 => 0x000160000#36
  | .aluInvalid23 => 0x000170000#36
  | .aluH => 0x000180000#36
  | .aluInvalid25 => 0x000190000#36
  | .aluNotH => 0x0001A0000#36
  | .aluInvalid27 => 0x0001B0000#36
  | .aluOr => 0x0001C0000#36
  | .aluInvalid29 => 0x0001D0000#36
  | .aluInvalid30 => 0x0001E0000#36
  | .aluInvalid31 => 0x0001F0000#36
  | .aluInvalid32 => 0x000200000#36
  | .aluInvalid33 => 0x000210000#36
  | .aluInvalid34 => 0x000220000#36
  | .aluInvalid35 => 0x000230000#36
  | .aluInvalid36 => 0x000240000#36
  | .aluInvalid37 => 0x000250000#36
  | .aluInvalid38 => 0x000260000#36
  | .aluInvalid39 => 0x000270000#36
  | .aluInvalid40 => 0x000280000#36
  | .aluInvalid41 => 0x000290000#36
  | .aluInvalid42 => 0x0002A0000#36
  | .aluInvalid43 => 0x0002B0000#36
  | .aluNotB => 0x0002C0000#36
  | .aluInvalid45 => 0x0002D0000#36
  | .aluInvalid46 => 0x0002E0000#36
  | .aluInvalid47 => 0x0002F0000#36
  | .aluInvalid48 => 0x000300000#36
  | .aluInvalid49 => 0x000310000#36
  | .aluInvalid50 => 0x000320000#36
  | .aluInvalid51 => 0x000330000#36
  | .aluInvalid52 => 0x000340000#36
  | .aluIncB => 0x000350000#36
  | .aluDecB => 0x000360000#36
  | .aluInvalid55 => 0x000370000#36
  | .aluInvalid56 => 0x000380000#36
  | .aluIncH => 0x000390000#36
  | .aluInvalid58 => 0x0003A0000#36
  | .aluNegH => 0x0003B0000#36
  | .aluAdd => 0x0003C0000#36
  | .aluAddInc => 0x0003D0000#36
  | .aluInvalid62 => 0x0003E0000#36
  | .aluSub => 0x0003F0000#36
  | .shiftNone => 0x000000000#36
  | .shiftSll8 => 0x000400000#36
  | .shiftSrl1 => 0x000800000#36
  | .shiftInvalid3 => 0x000C00000#36
  | .cMar => 0x000000080#36
  | .cMdr => 0x000000100#36
  | .cPc => 0x000000200#36
  | .cSp => 0x000000400#36
  | .cLv => 0x000000800#36
  | .cCpp => 0x000001000#36
  | .cTos => 0x000002000#36
  | .cOpc => 0x000004000#36
  | .cH => 0x000008000#36
  | .memFetch => 0x000000010#36
  | .memRd => 0x000000020#36
  | .memWr => 0x000000040#36
  | .mpcNext base => base.setWidth 36 <<< 27
  | .jumpJamn => 0x001000000#36
  | .jumpJamz => 0x002000000#36
  | .jumpJmpc => 0x004000000#36

/-- The bits of a word that decide whether a row is in it: the "mask" column of spec/opcode_table.json, and for
the NEXT row, whose mask there is 0 because every value is valid, the place of its operand. -/
def rowMask : Instr → MicroWord
  | .bMdr | .bPc | .bMbr | .bMbru | .bSp | .bLv | .bCpp | .bTos
  | .bOpc | .bInvalid9 | .bInvalid10 | .bInvalid11 | .bInvalid12 | .bInvalid13 | .bInvalid14 | .bInvalid15 => 0x00000000F#36
  | .aluInvalid0 | .aluInvalid1 | .aluInvalid2 | .aluInvalid3 | .aluInvalid4 | .aluInvalid5 | .aluInvalid6 | .aluInvalid7
  | .aluInvalid8 | .aluInvalid9 | .aluInvalid10 | .aluInvalid11 | .aluAnd | .aluInvalid13 | .aluInvalid14 | .aluInvalid15
  | .aluInvalid16 | .aluOne | .aluMinus1 | .aluInvalid19 | .aluB | .aluInvalid21 | .aluInvalid22 | .aluInvalid23
  | .aluH | .aluInvalid25 | .aluNotH | .aluInvalid27 | .aluOr | .aluInvalid29 | .aluInvalid30 | .aluInvalid31
  | .aluInvalid32 | .aluInvalid33 | .aluInvalid34 | .aluInvalid35 | .aluInvalid36 | .aluInvalid37 | .aluInvalid38 | .aluInvalid39
  | .aluInvalid40 | .aluInvalid41 | .aluInvalid42 | .aluInvalid43 | .aluNotB | .aluInvalid45 | .aluInvalid46 | .aluInvalid47
  | .aluInvalid48 | .aluInvalid49 | .aluInvalid50 | .aluInvalid51 | .aluInvalid52 | .aluIncB | .aluDecB | .aluInvalid55
  | .aluInvalid56 | .aluIncH | .aluInvalid58 | .aluNegH | .aluAdd | .aluAddInc | .aluInvalid62 | .aluSub => 0x0003F0000#36
  | .shiftNone | .shiftSll8 | .shiftSrl1 | .shiftInvalid3 => 0x000C00000#36
  | .cMar => 0x000000080#36
  | .cMdr => 0x000000100#36
  | .cPc => 0x000000200#36
  | .cSp => 0x000000400#36
  | .cLv => 0x000000800#36
  | .cCpp => 0x000001000#36
  | .cTos => 0x000002000#36
  | .cOpc => 0x000004000#36
  | .cH => 0x000008000#36
  | .memFetch => 0x000000010#36
  | .memRd => 0x000000020#36
  | .memWr => 0x000000040#36
  | .mpcNext _ => 0xFF8000000#36
  | .jumpJamn => 0x001000000#36
  | .jumpJamz => 0x002000000#36
  | .jumpJmpc => 0x004000000#36

/-- The word of a microinstruction: the bits of its rows together (R54). -/
def encode (ops : Microinstr) : MicroWord := ops.foldr (fun i w => rowMatch i ||| w) 0#36

/-- A 64-bit value as eight bytes, least significant first. -/
def recordOf (v : BitVec 64) : List Byte :=
  [v.extractLsb' 0 8, v.extractLsb' 8 8, v.extractLsb' 16 8, v.extractLsb' 24 8,
   v.extractLsb' 32 8, v.extractLsb' 40 8, v.extractLsb' 48 8, v.extractLsb' 56 8]

/-- The record of a microinstruction in a control-store image (70_reset_and_hazards.md R154). -/
def encodeRecord (ops : Microinstr) : List Byte := recordOf ((encode ops).setWidth 64)

/-! ### One row of a word, for the host's question about a row of the table -/

/-- The row that a word of the opcode table stands for, out of the rows decoded from it: the last row, in the
order of the word's bits, that sets a bit of the word; where no row sets one, the code-0 row of the last code
field that `nbits` bits reach (log entry 5). -/
def leadRow (nbits : Nat) (f : Fields) : Instr :=
  let setters := (bRow f.bSel :: memRows f.mem ++ cRows f.cMask ++ [aluRow f.aluOp, shiftRow f.shift] ++
    jumpRows f.jump ++ [Instr.mpcNext f.mpcNext]).filter fun i => rowMatch i != 0#36
  match setters.getLast? with
  | some i => i
  | none =>
    if nbits ≤ 8 then bRow f.bSel else if nbits ≤ 32 then aluRow f.aluOp else .mpcNext f.mpcNext

/-- The instruction the decoder reads from an instruction whose low `nbits` bits are `w`, every bit above them
0. A microinstruction is several rows at once, so this answers the one that `leadRow` picks from them. -/
def decodeTableWord (nbits w : Nat) : Option Instr :=
  let v := BitVec.ofNat 36 (w % 2 ^ nbits)
  match decodeRecord (recordOf (v.setWidth 64)) with
  | .ok (ops, _) => if leadRow nbits (unpack v) ∈ ops then some (leadRow nbits (unpack v)) else none
  | .error _ => none

end Sys2Proof
end

