-- ==== Sys2Proof/Machine/State.lean ====
section
/-! DEFINITION. The state of MIC-1 CORE (10_state.md R14), the events of its trace (60_exceptions.md R137), the
reasons a step can stop, and the reset state (10_state.md R29). -/

namespace Sys2Proof.Machine

/-- The engine status (10_state.md R26). -/
inductive Status where
  /-- Cycles happen. -/
  | running
  /-- The halt sentinel was fetched; terminal. -/
  | haltedNormal
  /-- A bounds fault was raised; terminal. -/
  | haltedFault
  deriving DecidableEq, Repr

/-- The events that a cycle appends to the trace (60_exceptions.md R137). `mpc` is the slot of the
microinstruction being executed. The load errors of R137 belong to no run; they are `LoadError`. -/
inductive Event where
  /-- BAD_BSEL, code 1 (R138). -/
  | badBsel (code : BitVec 4) (mpc : Slot)
  /-- BAD_ALU, code 2 (R139). -/
  | badAlu (code : BitVec 6) (mpc : Slot)
  /-- BAD_SHIFT, code 3 (R140). -/
  | badShift (code : BitVec 2) (mpc : Slot)
  /-- BOUNDS, code 16 (R142, R143). -/
  | bounds (pcOk marOk : Bool) (pc mar : Word) (mpc : Slot)
  /-- HALT_SENTINEL, code 32 (R144). -/
  | haltSentinel (pc : Word) (mpc : Slot)
  deriving DecidableEq, Repr

/-- Main memory: the bytes that differ from what an unlisted address reads as, addresses strictly rising
(10_state.md R28; 20_memory.md R35). -/
abbrev Memory := List Host.Cell

/-- Everything the spec gives the machine (10_state.md R14), M's capacity (R28), and three fields of the model
that carry the values which exist only inside one cycle (R31, R32; log entry 1). -/
structure State where
  /-- Memory address register: a word index (R16; 20_memory.md R36). -/
  mar : Word
  /-- Memory data register (R16). -/
  mdr : Word
  /-- Byte address of the next instruction-byte fetch (R19). -/
  pc : Word
  /-- Stack register (R16). -/
  sp : Word
  /-- Stack or operand register (R16). -/
  lv : Word
  /-- Constant-pool register (R16). -/
  cpp : Word
  /-- Stack or operand register (R16). -/
  tos : Word
  /-- Auxiliary register (R16). -/
  opc : Word
  /-- The ALU's A input (R16, R17). -/
  h : Word
  /-- Last fetched instruction byte (R16). -/
  mbr : Byte
  /-- The microinstruction of the current cycle (R21). -/
  mir : MicroWord
  /-- Control-store index of the next microinstruction (R20). -/
  mpc : Slot
  /-- flag_negative: the last ALU result was nonzero (R22, R23). -/
  n : Bool
  /-- flag_zero: the last ALU result was zero (R22, R23). -/
  z : Bool
  /-- The C-bus latch (R25). -/
  cl : Word
  /-- The engine status (R26). -/
  status : Status
  /-- The control store (R27). -/
  cs : Vector MicroWord 512
  /-- Main memory (R28). -/
  mem : Memory
  /-- CAP, the capacity of main memory in bytes, fixed for the process lifetime (R28; 00_scope.md R5). -/
  cap : Nat
  /-- The run's events, oldest first; output only (R14). -/
  trace : List Event
  /-- MODEL'S OWN: the B bus of the cycle in progress (R31); 0 between cycles. -/
  busB : Word
  /-- MODEL'S OWN: the ALU result r of the cycle in progress (42_alu_shifter.md R79); 0 between cycles. -/
  aluR : Word
  /-- MODEL'S OWN: the fault-pending signal of the cycle in progress (R32); false between cycles. -/
  faultPending : Bool
  deriving DecidableEq, Repr

/-- Why `step` answers no next state (log entry 7). -/
inductive Fault where
  /-- Raised by `step` alone, when the status is HALTED_NORMAL: such a state has no step (46_cycle_engine.md R129,
  R134). Safe: the hardware does not go on either. -/
  | noStepHaltedNormal
  /-- Raised by `step` alone, when the status is HALTED_FAULT: such a state has no step (46_cycle_engine.md R129,
  R134). Safe: the hardware does not go on either. -/
  | noStepHaltedFault
  deriving DecidableEq, Repr

/-- Why an instruction has no meaning in the model. -/
inductive Refusal where
  /-- Raised by an arm of `exec` whose instruction has no meaning yet. No arm is left that raises it. Safe. -/
  | notModelled (mnemonic : String)
  deriving DecidableEq, Repr

/-- The machine at the start of its first cycle (10_state.md R29), with the empty control-store image and the
program image of 20 zero bytes (log entry 3) and the reference capacity (log entry 2). -/
def State.reset : State where
  mar := 0#32
  mdr := 0#32
  pc := 0#32
  sp := 0#32
  lv := 0#32
  cpp := 0#32
  tos := 0#32
  opc := 0#32
  h := 0#32
  mbr := 0#8
  mir := 0#36
  mpc := 0#9
  n := false
  z := false
  cl := 0#32
  status := .running
  cs := Vector.replicate 512 0#36
  mem := []
  cap := Config.reference.cap
  trace := []
  busB := 0#32
  aluR := 0#32
  faultPending := false

end Sys2Proof.Machine
end

