-- ==== Sys2Proof/Machine/Ops.lean ====
section
/-! DEFINITION. The named operations over memory, the control store, the trace and the engine status.
MIC-1 CORE has no trap entry and no trap return (60_exceptions.md R147, R148): what a violation does is
`raiseBounds`, and what ends a run is `terminationCheck`; both stand here once. -/

namespace Sys2Proof.Machine

/-! ### Main memory -/

/-- What a byte that nothing has written reads as: zero (10_state.md R29; 20_memory.md R44; D12). -/
def unlistedByte : Byte := 0#8

/-- M[a] (00_scope.md R11). -/
def Memory.read : Memory → Nat → Byte
  | [], _ => unlistedByte
  | (k, b) :: rest, a => if k = a then b else Memory.read rest a

/-- `M[a] <- v` (00_scope.md R11), kept in canonical form. -/
def Memory.write : Memory → Nat → Byte → Memory
  | [], a, v => if v = unlistedByte then [] else [(a, v)]
  | (k, b) :: rest, a, v =>
    if a < k then (if v = unlistedByte then (k, b) :: rest else (a, v) :: (k, b) :: rest)
    else if a = k then (if v = unlistedByte then rest else (a, v) :: rest)
    else (k, b) :: Memory.write rest a v

/-- The canonical form: addresses strictly rising, no entry equal to what an unlisted address reads as. -/
def Memory.wf : Memory → Bool
  | [] => true
  | [(_, b)] => b != unlistedByte
  | (k, b) :: (k', b') :: rest => b != unlistedByte && decide (k < k') && Memory.wf ((k', b') :: rest)

/-- Four bytes as a word, the first in bits 7:0 (20_memory.md R37; D9). -/
def wordOfBytes (b0 b1 b2 b3 : Byte) : Word :=
  b0.setWidth 32 ||| b1.setWidth 32 <<< 8 ||| b2.setWidth 32 <<< 16 ||| b3.setWidth 32 <<< 24

/-- Byte lane `k` of a word: bits 8k+7 down to 8k (20_memory.md R37, R38). -/
def byteLane (v : Word) (k : Nat) : Byte := v.extractLsb' (8 * k) 8

/-- MemRead(a, 4) (00_scope.md R11). -/
def Memory.readWord (m : Memory) (a : Nat) : Word :=
  wordOfBytes (m.read a) (m.read (a + 1)) (m.read (a + 2)) (m.read (a + 3))

/-- MemWrite(a, 4, v) (00_scope.md R11). -/
def Memory.writeWord (m : Memory) (a : Nat) (v : Word) : Memory :=
  (((m.write a (byteLane v 0)).write (a + 1) (byteLane v 1)).write (a + 2) (byteLane v 2)).write
    (a + 3) (byteLane v 3)

/-! ### Addresses and bounds -/

/-- The byte address of a word access, the exact product 4 * MAR (20_memory.md R36; D5). -/
def wordAddr (s : State) : Nat := 4 * s.mar.toNat

/-- `x[PC] < CAP`, unsigned (44_memory_unit.md R115). -/
def pcOk (s : State) : Bool := Nat.blt s.pc.toNat s.cap

/-- `4 * x[MAR] < CAP`, exact and unsigned (44_memory_unit.md R115). -/
def marOk (s : State) : Bool := Nat.blt (wordAddr s) s.cap

/-- Both bounds checks pass (44_memory_unit.md R115). -/
def inBounds (s : State) : Bool := pcOk s && marOk s

/-! ### Control store -/

/-- `CS[i]` (00_scope.md R11). -/
def controlWord (cs : Vector MicroWord 512) (i : Slot) : MicroWord :=
  cs[i.toNat]'(by have := i.isLt; omega)

/-! ### Events -/

/-- Append an event to the trace (60_exceptions.md R137; D17). -/
def record (e : Event) (s : State) : State := { s with trace := s.trace ++ [e] }

/-- The numeric codes of the events of a run (60_exceptions.md R137). -/
def eventCode : Event → Nat
  | .badBsel _ _ => 1
  | .badAlu _ _ => 2
  | .badShift _ _ => 3
  | .bounds _ _ _ _ _ => 16
  | .haltSentinel _ _ => 32

/-- The BOUNDS event of a state (60_exceptions.md R142, R143). -/
def boundsEvent (s : State) : Event := .bounds (pcOk s) (marOk s) s.pc s.mar s.mpc

/-- `raise Fault(BOUNDS, …)`: record the event and set the fault-pending signal, once in a cycle
(00_scope.md R11; 44_memory_unit.md R114; 60_exceptions.md R142, R143; D23). The cycle goes on; the engine halts at
the termination check (D10). -/
def raiseBounds (s : State) : State :=
  if s.faultPending then s else { record (boundsEvent s) s with faultPending := true }

/-- The bounds check of every cycle, whatever MEM holds (44_memory_unit.md R115; D6). -/
def boundsCheck (s : State) : State := if inBounds s then s else raiseBounds s

/-- The termination check, step 9 of a cycle whose microinstruction came from `slot`
(46_cycle_engine.md R132; 60_exceptions.md R144). -/
def terminationCheck (slot : Slot) (s : State) : State :=
  if s.mbr = Config.haltSentinel then
    record (.haltSentinel s.pc slot) { s with status := .haltedNormal }
  else if !pcOk s || s.faultPending then { s with status := .haltedFault }
  else s

end Sys2Proof.Machine
end

