-- ==== Sys2Proof/Machine/Flags.lean ====
section
/-! DEFINITION. The flag rule (42_alu_shifter.md R96) and what a flag contributes to the next address
(45_next_address.md R121). No other flag computation exists (42_alu_shifter.md R103). -/

namespace Sys2Proof.Machine

/-- Z = 1 and N = 0 when the ALU result is zero, Z = 0 and N = 1 otherwise (R96). -/
def setFlags (r : Word) (s : State) : State := { s with z := r == 0#32, n := r != 0#32 }

/-- A flag moved to bit 8 of a control-store index: `x[N] << 8`, `x[Z] << 8` (45_next_address.md R121). -/
def flagBit8 (flag : Bool) : Slot := if flag then 0x100#9 else 0#9

end Sys2Proof.Machine
end

