-- ==== Sys2Proof/Machine/Operands.lean ====
section
/-! DEFINITION. The operations that the rows of one field share: driving the B bus, leaving an ALU result, driving
the C bus, reading the C bus, a memory access under the bounds check, and ORing into the next address. -/

namespace Sys2Proof.Machine

/-- The all-ones pattern, -1 in 32 bits (00_scope.md R9; 41_bbus_router.md R78). -/
def allOnes : Word := 0xFFFFFFFF#32

/-! ### B bus (41_bbus_router.md) -/

/-- `sext_32(x[MBR])` (R71; 00_scope.md R10). -/
def mbrSigned (s : State) : Word := s.mbr.signExtend 32

/-- `zext_32(x[MBR])` (R72; 00_scope.md R10). -/
def mbrUnsigned (s : State) : Word := s.mbr.setWidth 32

/-- Put a value on the B bus (R68). -/
def driveB (v : Word) (s : State) : State := { s with busB := v }

/-- An invalid selector: all ones on the B bus and the warning BAD_BSEL (R78; 60_exceptions.md R138). -/
def driveInvalidB (code : BitVec 4) (s : State) : State :=
  record (.badBsel code s.mpc) (driveB allOnes s)

/-! ### ALU (42_alu_shifter.md) -/

/-- Leave the ALU result and set the flags from it (R79, R96). -/
def aluResult (r : Word) (s : State) : State := setFlags r { s with aluR := r }

/-- An invalid ALU code: the result is CL, with the warning BAD_ALU (R95; 60_exceptions.md R139). -/
def aluInvalid (code : BitVec 6) (s : State) : State :=
  record (.badAlu code s.mpc) (aluResult s.cl s)

/-! ### Shifter and C bus (42_alu_shifter.md, 43_cbus_writeback.md) -/

/-- Put a value on the C bus; CL holds it from here on (R102). -/
def shiftOut (c : Word) (s : State) : State := { s with cl := c }

/-- An invalid shift code: the result unshifted, with the warning BAD_SHIFT (R101; 60_exceptions.md R140). -/
def shiftInvalid (code : BitVec 2) (s : State) : State :=
  record (.badShift code s.mpc) (shiftOut s.aluR s)

/-- The C bus as the write-back reads it: CL, which the shift step of the same cycle has written (R102, R104). -/
def cBus (s : State) : Word := s.cl

/-! ### Memory unit (44_memory_unit.md) -/

/-- `x[MBR] <- MemRead(x[PC], 1)` (R114, R116). -/
def fetchByte (s : State) : State := { s with mbr := s.mem.read s.pc.toNat }

/-- `x[MDR] <- MemRead(4 * x[MAR], 4)` (R114, R117). -/
def loadWord (s : State) : State := { s with mdr := s.mem.readWord (wordAddr s) }

/-- `MemWrite(4 * x[MAR], 4, x[MDR])` (R114, R118). -/
def storeWord (s : State) : State := { s with mem := s.mem.writeWord (wordAddr s) s.mdr }

/-- An access is performed when the bounds check passes; when it fails, the fault is raised and nothing is accessed
(R114, R115, R120; log entry 8). -/
def memoryAccess (access : State → State) (s : State) : State :=
  if inBounds s then access s else raiseBounds s

/-! ### Next address (45_next_address.md) -/

/-- OR a contribution into the next address, which MPC holds from the NEXT row on (R121). -/
def orMpc (v : Slot) (s : State) : State := { s with mpc := s.mpc ||| v }

end Sys2Proof.Machine
end

