-- ==== Sys2Proof/Machine/Alu.lean ====
section
/-! DEFINITION. The ALU: the meaning of each ALU_OP row (42_alu_shifter.md R79 to R95). A row leaves its result r and sets N
and Z from it (R96); A is register H, read before any write-back (R79). A row of an invalid code takes r from CL
and records its warning (R95). -/

namespace Sys2Proof.Machine

/-- ALU.INVALID_0 (R95; 60_exceptions.md R139). -/
def execAluInvalid0 (s : State) : Host.Outcome State Fault Refusal := .next (aluInvalid 0#6 s)

/-- ALU.INVALID_1 (R95; 60_exceptions.md R139). -/
def execAluInvalid1 (s : State) : Host.Outcome State Fault Refusal := .next (aluInvalid 1#6 s)

/-- ALU.INVALID_2 (R95; 60_exceptions.md R139). -/
def execAluInvalid2 (s : State) : Host.Outcome State Fault Refusal := .next (aluInvalid 2#6 s)

/-- ALU.INVALID_3 (R95; 60_exceptions.md R139). -/
def execAluInvalid3 (s : State) : Host.Outcome State Fault Refusal := .next (aluInvalid 3#6 s)

/-- ALU.INVALID_4 (R95; 60_exceptions.md R139). -/
def execAluInvalid4 (s : State) : Host.Outcome State Fault Refusal := .next (aluInvalid 4#6 s)

/-- ALU.INVALID_5 (R95; 60_exceptions.md R139). -/
def execAluInvalid5 (s : State) : Host.Outcome State Fault Refusal := .next (aluInvalid 5#6 s)

/-- ALU.INVALID_6 (R95; 60_exceptions.md R139). -/
def execAluInvalid6 (s : State) : Host.Outcome State Fault Refusal := .next (aluInvalid 6#6 s)

/-- ALU.INVALID_7 (R95; 60_exceptions.md R139). -/
def execAluInvalid7 (s : State) : Host.Outcome State Fault Refusal := .next (aluInvalid 7#6 s)

/-- ALU.INVALID_8 (R95; 60_exceptions.md R139). -/
def execAluInvalid8 (s : State) : Host.Outcome State Fault Refusal := .next (aluInvalid 8#6 s)

/-- ALU.INVALID_9 (R95; 60_exceptions.md R139). -/
def execAluInvalid9 (s : State) : Host.Outcome State Fault Refusal := .next (aluInvalid 9#6 s)

/-- ALU.INVALID_10 (R95; 60_exceptions.md R139). -/
def execAluInvalid10 (s : State) : Host.Outcome State Fault Refusal := .next (aluInvalid 10#6 s)

/-- ALU.INVALID_11 (R95; 60_exceptions.md R139). -/
def execAluInvalid11 (s : State) : Host.Outcome State Fault Refusal := .next (aluInvalid 11#6 s)

/-- ALU.AND (R80). -/
def execAluAnd (s : State) : Host.Outcome State Fault Refusal := .next (aluResult (s.h &&& s.busB) s)

/-- ALU.INVALID_13 (R95; 60_exceptions.md R139). -/
def execAluInvalid13 (s : State) : Host.Outcome State Fault Refusal := .next (aluInvalid 13#6 s)

/-- ALU.INVALID_14 (R95; 60_exceptions.md R139). -/
def execAluInvalid14 (s : State) : Host.Outcome State Fault Refusal := .next (aluInvalid 14#6 s)

/-- ALU.INVALID_15 (R95; 60_exceptions.md R139). -/
def execAluInvalid15 (s : State) : Host.Outcome State Fault Refusal := .next (aluInvalid 15#6 s)

/-- ALU.INVALID_16 (R95; 60_exceptions.md R139). -/
def execAluInvalid16 (s : State) : Host.Outcome State Fault Refusal := .next (aluInvalid 16#6 s)

/-- ALU.ONE (R81). -/
def execAluOne (s : State) : Host.Outcome State Fault Refusal := .next (aluResult 1#32 s)

/-- ALU.MINUS1 (R82). -/
def execAluMinus1 (s : State) : Host.Outcome State Fault Refusal := .next (aluResult allOnes s)

/-- ALU.INVALID_19 (R95; 60_exceptions.md R139). -/
def execAluInvalid19 (s : State) : Host.Outcome State Fault Refusal := .next (aluInvalid 19#6 s)

/-- ALU.B (R83). -/
def execAluB (s : State) : Host.Outcome State Fault Refusal := .next (aluResult s.busB s)

/-- ALU.INVALID_21 (R95; 60_exceptions.md R139). -/
def execAluInvalid21 (s : State) : Host.Outcome State Fault Refusal := .next (aluInvalid 21#6 s)

/-- ALU.INVALID_22 (R95; 60_exceptions.md R139). -/
def execAluInvalid22 (s : State) : Host.Outcome State Fault Refusal := .next (aluInvalid 22#6 s)

/-- ALU.INVALID_23 (R95; 60_exceptions.md R139). -/
def execAluInvalid23 (s : State) : Host.Outcome State Fault Refusal := .next (aluInvalid 23#6 s)

/-- ALU.H (R84). -/
def execAluH (s : State) : Host.Outcome State Fault Refusal := .next (aluResult s.h s)

/-- ALU.INVALID_25 (R95; 60_exceptions.md R139). -/
def execAluInvalid25 (s : State) : Host.Outcome State Fault Refusal := .next (aluInvalid 25#6 s)

/-- ALU.NOTH (R85). -/
def execAluNotH (s : State) : Host.Outcome State Fault Refusal := .next (aluResult (~~~s.h) s)

/-- ALU.INVALID_27 (R95; 60_exceptions.md R139). -/
def execAluInvalid27 (s : State) : Host.Outcome State Fault Refusal := .next (aluInvalid 27#6 s)

/-- ALU.OR (R86). -/
def execAluOr (s : State) : Host.Outcome State Fault Refusal := .next (aluResult (s.h ||| s.busB) s)

/-- ALU.INVALID_29 (R95; 60_exceptions.md R139). -/
def execAluInvalid29 (s : State) : Host.Outcome State Fault Refusal := .next (aluInvalid 29#6 s)

/-- ALU.INVALID_30 (R95; 60_exceptions.md R139). -/
def execAluInvalid30 (s : State) : Host.Outcome State Fault Refusal := .next (aluInvalid 30#6 s)

/-- ALU.INVALID_31 (R95; 60_exceptions.md R139). -/
def execAluInvalid31 (s : State) : Host.Outcome State Fault Refusal := .next (aluInvalid 31#6 s)

/-- ALU.INVALID_32 (R95; 60_exceptions.md R139). -/
def execAluInvalid32 (s : State) : Host.Outcome State Fault Refusal := .next (aluInvalid 32#6 s)

/-- ALU.INVALID_33 (R95; 60_exceptions.md R139). -/
def execAluInvalid33 (s : State) : Host.Outcome State Fault Refusal := .next (aluInvalid 33#6 s)

/-- ALU.INVALID_34 (R95; 60_exceptions.md R139). -/
def execAluInvalid34 (s : State) : Host.Outcome State Fault Refusal := .next (aluInvalid 34#6 s)

/-- ALU.INVALID_35 (R95; 60_exceptions.md R139). -/
def execAluInvalid35 (s : State) : Host.Outcome State Fault Refusal := .next (aluInvalid 35#6 s)

/-- ALU.INVALID_36 (R95; 60_exceptions.md R139). -/
def execAluInvalid36 (s : State) : Host.Outcome State Fault Refusal := .next (aluInvalid 36#6 s)

/-- ALU.INVALID_37 (R95; 60_exceptions.md R139). -/
def execAluInvalid37 (s : State) : Host.Outcome State Fault Refusal := .next (aluInvalid 37#6 s)

/-- ALU.INVALID_38 (R95; 60_exceptions.md R139). -/
def execAluInvalid38 (s : State) : Host.Outcome State Fault Refusal := .next (aluInvalid 38#6 s)

/-- ALU.INVALID_39 (R95; 60_exceptions.md R139). -/
def execAluInvalid39 (s : State) : Host.Outcome State Fault Refusal := .next (aluInvalid 39#6 s)

/-- ALU.INVALID_40 (R95; 60_exceptions.md R139). -/
def execAluInvalid40 (s : State) : Host.Outcome State Fault Refusal := .next (aluInvalid 40#6 s)

/-- ALU.INVALID_41 (R95; 60_exceptions.md R139). -/
def execAluInvalid41 (s : State) : Host.Outcome State Fault Refusal := .next (aluInvalid 41#6 s)

/-- ALU.INVALID_42 (R95; 60_exceptions.md R139). -/
def execAluInvalid42 (s : State) : Host.Outcome State Fault Refusal := .next (aluInvalid 42#6 s)

/-- ALU.INVALID_43 (R95; 60_exceptions.md R139). -/
def execAluInvalid43 (s : State) : Host.Outcome State Fault Refusal := .next (aluInvalid 43#6 s)

/-- ALU.NOTB (R87). -/
def execAluNotB (s : State) : Host.Outcome State Fault Refusal := .next (aluResult (~~~s.busB) s)

/-- ALU.INVALID_45 (R95; 60_exceptions.md R139). -/
def execAluInvalid45 (s : State) : Host.Outcome State Fault Refusal := .next (aluInvalid 45#6 s)

/-- ALU.INVALID_46 (R95; 60_exceptions.md R139). -/
def execAluInvalid46 (s : State) : Host.Outcome State Fault Refusal := .next (aluInvalid 46#6 s)

/-- ALU.INVALID_47 (R95; 60_exceptions.md R139). -/
def execAluInvalid47 (s : State) : Host.Outcome State Fault Refusal := .next (aluInvalid 47#6 s)

/-- ALU.INVALID_48 (R95; 60_exceptions.md R139). -/
def execAluInvalid48 (s : State) : Host.Outcome State Fault Refusal := .next (aluInvalid 48#6 s)

/-- ALU.INVALID_49 (R95; 60_exceptions.md R139). -/
def execAluInvalid49 (s : State) : Host.Outcome State Fault Refusal := .next (aluInvalid 49#6 s)

/-- ALU.INVALID_50 (R95; 60_exceptions.md R139). -/
def execAluInvalid50 (s : State) : Host.Outcome State Fault Refusal := .next (aluInvalid 50#6 s)

/-- ALU.INVALID_51 (R95; 60_exceptions.md R139). -/
def execAluInvalid51 (s : State) : Host.Outcome State Fault Refusal := .next (aluInvalid 51#6 s)

/-- ALU.INVALID_52 (R95; 60_exceptions.md R139). -/
def execAluInvalid52 (s : State) : Host.Outcome State Fault Refusal := .next (aluInvalid 52#6 s)

/-- ALU.INCB (R88). -/
def execAluIncB (s : State) : Host.Outcome State Fault Refusal := .next (aluResult (s.busB + 1#32) s)

/-- ALU.DECB (R89). -/
def execAluDecB (s : State) : Host.Outcome State Fault Refusal := .next (aluResult (s.busB - 1#32) s)

/-- ALU.INVALID_55 (R95; 60_exceptions.md R139). -/
def execAluInvalid55 (s : State) : Host.Outcome State Fault Refusal := .next (aluInvalid 55#6 s)

/-- ALU.INVALID_56 (R95; 60_exceptions.md R139). -/
def execAluInvalid56 (s : State) : Host.Outcome State Fault Refusal := .next (aluInvalid 56#6 s)

/-- ALU.INCH (R90). -/
def execAluIncH (s : State) : Host.Outcome State Fault Refusal := .next (aluResult (s.h + 1#32) s)

/-- ALU.INVALID_58 (R95; 60_exceptions.md R139). -/
def execAluInvalid58 (s : State) : Host.Outcome State Fault Refusal := .next (aluInvalid 58#6 s)

/-- ALU.NEGH (R91). -/
def execAluNegH (s : State) : Host.Outcome State Fault Refusal := .next (aluResult (-s.h) s)

/-- ALU.ADD (R92). -/
def execAluAdd (s : State) : Host.Outcome State Fault Refusal := .next (aluResult (s.h + s.busB) s)

/-- ALU.ADDINC (R93). -/
def execAluAddInc (s : State) : Host.Outcome State Fault Refusal := .next (aluResult (s.h + s.busB + 1#32) s)

/-- ALU.INVALID_62 (R95; 60_exceptions.md R139). -/
def execAluInvalid62 (s : State) : Host.Outcome State Fault Refusal := .next (aluInvalid 62#6 s)

/-- ALU.SUB (R94). -/
def execAluSub (s : State) : Host.Outcome State Fault Refusal := .next (aluResult (s.busB - s.h) s)

end Sys2Proof.Machine
end

