-- ==== Sys2Proof/Machine/BBus.lean ====
section
/-! DEFINITION. The B-bus router: the meaning of each B_SEL row (41_bbus_router.md). A row puts its value on the B bus and
writes nothing else; a row of an invalid code also records its warning (R78). -/

namespace Sys2Proof.Machine

/-- B.MDR (R69). -/
def execBMdr (s : State) : Host.Outcome State Fault Refusal := .next (driveB s.mdr s)

/-- B.PC (R70). -/
def execBPc (s : State) : Host.Outcome State Fault Refusal := .next (driveB s.pc s)

/-- B.MBR (R71). -/
def execBMbr (s : State) : Host.Outcome State Fault Refusal := .next (driveB (mbrSigned s) s)

/-- B.MBRU (R72). -/
def execBMbru (s : State) : Host.Outcome State Fault Refusal := .next (driveB (mbrUnsigned s) s)

/-- B.SP (R73). -/
def execBSp (s : State) : Host.Outcome State Fault Refusal := .next (driveB s.sp s)

/-- B.LV (R74). -/
def execBLv (s : State) : Host.Outcome State Fault Refusal := .next (driveB s.lv s)

/-- B.CPP (R75). -/
def execBCpp (s : State) : Host.Outcome State Fault Refusal := .next (driveB s.cpp s)

/-- B.TOS (R76). -/
def execBTos (s : State) : Host.Outcome State Fault Refusal := .next (driveB s.tos s)

/-- B.OPC (R77). -/
def execBOpc (s : State) : Host.Outcome State Fault Refusal := .next (driveB s.opc s)

/-- B.INVALID_9 (R78; 60_exceptions.md R138). -/
def execBInvalid9 (s : State) : Host.Outcome State Fault Refusal := .next (driveInvalidB 9#4 s)

/-- B.INVALID_10 (R78; 60_exceptions.md R138). -/
def execBInvalid10 (s : State) : Host.Outcome State Fault Refusal := .next (driveInvalidB 10#4 s)

/-- B.INVALID_11 (R78; 60_exceptions.md R138). -/
def execBInvalid11 (s : State) : Host.Outcome State Fault Refusal := .next (driveInvalidB 11#4 s)

/-- B.INVALID_12 (R78; 60_exceptions.md R138). -/
def execBInvalid12 (s : State) : Host.Outcome State Fault Refusal := .next (driveInvalidB 12#4 s)

/-- B.INVALID_13 (R78; 60_exceptions.md R138). -/
def execBInvalid13 (s : State) : Host.Outcome State Fault Refusal := .next (driveInvalidB 13#4 s)

/-- B.INVALID_14 (R78; 60_exceptions.md R138). -/
def execBInvalid14 (s : State) : Host.Outcome State Fault Refusal := .next (driveInvalidB 14#4 s)

/-- B.INVALID_15 (R78; 60_exceptions.md R138). -/
def execBInvalid15 (s : State) : Host.Outcome State Fault Refusal := .next (driveInvalidB 15#4 s)

end Sys2Proof.Machine
end

