-- ==== Sys2Proof/Machine/MemoryUnit.lean ====
section
/-! DEFINITION. The memory unit's three requests: the meaning of each MEM row (44_memory_unit.md R116 to R118). Each is
performed when the bounds check passes; otherwise the BOUNDS fault is raised and nothing is accessed (R115, R120). -/

namespace Sys2Proof.Machine

/-- MEM.fetch (R116). -/
def execMemFetch (s : State) : Host.Outcome State Fault Refusal := .next (memoryAccess fetchByte s)

/-- MEM.rd (R117). -/
def execMemRd (s : State) : Host.Outcome State Fault Refusal := .next (memoryAccess loadWord s)

/-- MEM.wr (R118). -/
def execMemWr (s : State) : Host.Outcome State Fault Refusal := .next (memoryAccess storeWord s)

end Sys2Proof.Machine
end

