-- ==== Sys2Proof/Machine/NextAddress.lean ====
section
/-! DEFINITION. The next-address unit: the meaning of the NEXT row and of each JUMP row (45_next_address.md). The NEXT row
puts the base in MPC and each JUMP row ORs its contribution in (R121). -/

namespace Sys2Proof.Machine

/-- NEXT (R122). -/
def execMpcNext (base : Slot) (s : State) : Host.Outcome State Fault Refusal := .next { s with mpc := base }

/-- JUMP.JAMN (R123). -/
def execJumpJamn (s : State) : Host.Outcome State Fault Refusal := .next (orMpc (flagBit8 s.n) s)

/-- JUMP.JAMZ (R124). -/
def execJumpJamz (s : State) : Host.Outcome State Fault Refusal := .next (orMpc (flagBit8 s.z) s)

/-- JUMP.JMPC (R125). -/
def execJumpJmpc (s : State) : Host.Outcome State Fault Refusal := .next (orMpc (s.mbr.setWidth 9) s)

end Sys2Proof.Machine
end

