-- ==== Sys2Proof/Machine/Shifter.lean ====
section
/-! DEFINITION. The shifter: the meaning of each SHIFT row (42_alu_shifter.md R97 to R102). A row puts the shifted ALU result
on the C bus, which CL holds from then on (R102); it leaves the flags as the ALU set them. -/

namespace Sys2Proof.Machine

/-- SHIFT.NOSHIFT (R98). -/
def execShiftNone (s : State) : Host.Outcome State Fault Refusal := .next (shiftOut s.aluR s)

/-- SHIFT.SLL8 (R99). -/
def execShiftSll8 (s : State) : Host.Outcome State Fault Refusal := .next (shiftOut (s.aluR <<< 8) s)

/-- SHIFT.SRL1 (R100). -/
def execShiftSrl1 (s : State) : Host.Outcome State Fault Refusal := .next (shiftOut (s.aluR >>> 1) s)

/-- SHIFT.INVALID_3 (R101; 60_exceptions.md R140). -/
def execShiftInvalid3 (s : State) : Host.Outcome State Fault Refusal := .next (shiftInvalid 3#2 s)

end Sys2Proof.Machine
end

