-- ==== Sys2Proof/Machine/WriteBack.lean ====
section
/-! DEFINITION. The C-bus write-back: the meaning of each C_MASK row (43_cbus_writeback.md). A row copies the C bus, which CL
holds since the shift step (42_alu_shifter.md R102), into its one register. -/

namespace Sys2Proof.Machine

/-- C.MAR (R105). -/
def execCMar (s : State) : Host.Outcome State Fault Refusal := .next { s with mar := cBus s }

/-- C.MDR (R106). -/
def execCMdr (s : State) : Host.Outcome State Fault Refusal := .next { s with mdr := cBus s }

/-- C.PC (R107). -/
def execCPc (s : State) : Host.Outcome State Fault Refusal := .next { s with pc := cBus s }

/-- C.SP (R108). -/
def execCSp (s : State) : Host.Outcome State Fault Refusal := .next { s with sp := cBus s }

/-- C.LV (R109). -/
def execCLv (s : State) : Host.Outcome State Fault Refusal := .next { s with lv := cBus s }

/-- C.CPP (R110). -/
def execCCpp (s : State) : Host.Outcome State Fault Refusal := .next { s with cpp := cBus s }

/-- C.TOS (R111). -/
def execCTos (s : State) : Host.Outcome State Fault Refusal := .next { s with tos := cBus s }

/-- C.OPC (R112). -/
def execCOpc (s : State) : Host.Outcome State Fault Refusal := .next { s with opc := cBus s }

/-- C.H (R113). -/
def execCH (s : State) : Host.Outcome State Fault Refusal := .next { s with h := cBus s }

end Sys2Proof.Machine
end

