-- ==== Sys2Proof/Machine/Dispatch.lean ====
section
/-! DEFINITION. The meaning of each row of the opcode table, one arm per constructor of Instr. -/

namespace Sys2Proof.Machine

def exec (i : Instr) (s : State) : Host.Outcome State Fault Refusal :=
  match i with
  | .bMdr => Sys2Proof.Machine.execBMdr s
  | .bPc => Sys2Proof.Machine.execBPc s
  | .bMbr => Sys2Proof.Machine.execBMbr s
  | .bMbru => Sys2Proof.Machine.execBMbru s
  | .bSp => Sys2Proof.Machine.execBSp s
  | .bLv => Sys2Proof.Machine.execBLv s
  | .bCpp => Sys2Proof.Machine.execBCpp s
  | .bTos => Sys2Proof.Machine.execBTos s
  | .bOpc => Sys2Proof.Machine.execBOpc s
  | .bInvalid9 => Sys2Proof.Machine.execBInvalid9 s
  | .bInvalid10 => Sys2Proof.Machine.execBInvalid10 s
  | .bInvalid11 => Sys2Proof.Machine.execBInvalid11 s
  | .bInvalid12 => Sys2Proof.Machine.execBInvalid12 s
  | .bInvalid13 => Sys2Proof.Machine.execBInvalid13 s
  | .bInvalid14 => Sys2Proof.Machine.execBInvalid14 s
  | .bInvalid15 => Sys2Proof.Machine.execBInvalid15 s
  | .aluInvalid0 => Sys2Proof.Machine.execAluInvalid0 s
  | .aluInvalid1 => Sys2Proof.Machine.execAluInvalid1 s
  | .aluInvalid2 => Sys2Proof.Machine.execAluInvalid2 s
  | .aluInvalid3 => Sys2Proof.Machine.execAluInvalid3 s
  | .aluInvalid4 => Sys2Proof.Machine.execAluInvalid4 s
  | .aluInvalid5 => Sys2Proof.Machine.execAluInvalid5 s
  | .aluInvalid6 => Sys2Proof.Machine.execAluInvalid6 s
  | .aluInvalid7 => Sys2Proof.Machine.execAluInvalid7 s
  | .aluInvalid8 => Sys2Proof.Machine.execAluInvalid8 s
  | .aluInvalid9 => Sys2Proof.Machine.execAluInvalid9 s
  | .aluInvalid10 => Sys2Proof.Machine.execAluInvalid10 s
  | .aluInvalid11 => Sys2Proof.Machine.execAluInvalid11 s
  | .aluAnd => Sys2Proof.Machine.execAluAnd s
  | .aluInvalid13 => Sys2Proof.Machine.execAluInvalid13 s
  | .aluInvalid14 => Sys2Proof.Machine.execAluInvalid14 s
  | .aluInvalid15 => Sys2Proof.Machine.execAluInvalid15 s
  | .aluInvalid16 => Sys2Proof.Machine.execAluInvalid16 s
  | .aluOne => Sys2Proof.Machine.execAluOne s
  | .aluMinus1 => Sys2Proof.Machine.execAluMinus1 s
  | .aluInvalid19 => Sys2Proof.Machine.execAluInvalid19 s
  | .aluB => Sys2Proof.Machine.execAluB s
  | .aluInvalid21 => Sys2Proof.Machine.execAluInvalid21 s
  | .aluInvalid22 => Sys2Proof.Machine.execAluInvalid22 s
  | .aluInvalid23 => Sys2Proof.Machine.execAluInvalid23 s
  | .aluH => Sys2Proof.Machine.execAluH s
  | .aluInvalid25 => Sys2Proof.Machine.execAluInvalid25 s
  | .aluNotH => Sys2Proof.Machine.execAluNotH s
  | .aluInvalid27 => Sys2Proof.Machine.execAluInvalid27 s
  | .aluOr => Sys2Proof.Machine.execAluOr s
  | .aluInvalid29 => Sys2Proof.Machine.execAluInvalid29 s
  | .aluInvalid30 => Sys2Proof.Machine.execAluInvalid30 s
  | .aluInvalid31 => Sys2Proof.Machine.execAluInvalid31 s
  | .aluInvalid32 => Sys2Proof.Machine.execAluInvalid32 s
  | .aluInvalid33 => Sys2Proof.Machine.execAluInvalid33 s
  | .aluInvalid34 => Sys2Proof.Machine.execAluInvalid34 s
  | .aluInvalid35 => Sys2Proof.Machine.execAluInvalid35 s
  | .aluInvalid36 => Sys2Proof.Machine.execAluInvalid36 s
  | .aluInvalid37 => Sys2Proof.Machine.execAluInvalid37 s
  | .aluInvalid38 => Sys2Proof.Machine.execAluInvalid38 s
  | .aluInvalid39 => Sys2Proof.Machine.execAluInvalid39 s
  | .aluInvalid40 => Sys2Proof.Machine.execAluInvalid40 s
  | .aluInvalid41 => Sys2Proof.Machine.execAluInvalid41 s
  | .aluInvalid42 => Sys2Proof.Machine.execAluInvalid42 s
  | .aluInvalid43 => Sys2Proof.Machine.execAluInvalid43 s
  | .aluNotB => Sys2Proof.Machine.execAluNotB s
  | .aluInvalid45 => Sys2Proof.Machine.execAluInvalid45 s
  | .aluInvalid46 => Sys2Proof.Machine.execAluInvalid46 s
  | .aluInvalid47 => Sys2Proof.Machine.execAluInvalid47 s
  | .aluInvalid48 => Sys2Proof.Machine.execAluInvalid48 s
  | .aluInvalid49 => Sys2Proof.Machine.execAluInvalid49 s
  | .aluInvalid50 => Sys2Proof.Machine.execAluInvalid50 s
  | .aluInvalid51 => Sys2Proof.Machine.execAluInvalid51 s
  | .aluInvalid52 => Sys2Proof.Machine.execAluInvalid52 s
  | .aluIncB => Sys2Proof.Machine.execAluIncB s
  | .aluDecB => Sys2Proof.Machine.execAluDecB s
  | .aluInvalid55 => Sys2Proof.Machine.execAluInvalid55 s
  | .aluInvalid56 => Sys2Proof.Machine.execAluInvalid56 s
  | .aluIncH => Sys2Proof.Machine.execAluIncH s
  | .aluInvalid58 => Sys2Proof.Machine.execAluInvalid58 s
  | .aluNegH => Sys2Proof.Machine.execAluNegH s
  | .aluAdd => Sys2Proof.Machine.execAluAdd s
  | .aluAddInc => Sys2Proof.Machine.execAluAddInc s
  | .aluInvalid62 => Sys2Proof.Machine.execAluInvalid62 s
  | .aluSub => Sys2Proof.Machine.execAluSub s
  | .shiftNone => Sys2Proof.Machine.execShiftNone s
  | .shiftSll8 => Sys2Proof.Machine.execShiftSll8 s
  | .shiftSrl1 => Sys2Proof.Machine.execShiftSrl1 s
  | .shiftInvalid3 => Sys2Proof.Machine.execShiftInvalid3 s
  | .cMar => Sys2Proof.Machine.execCMar s
  | .cMdr => Sys2Proof.Machine.execCMdr s
  | .cPc => Sys2Proof.Machine.execCPc s
  | .cSp => Sys2Proof.Machine.execCSp s
  | .cLv => Sys2Proof.Machine.execCLv s
  | .cCpp => Sys2Proof.Machine.execCCpp s
  | .cTos => Sys2Proof.Machine.execCTos s
  | .cOpc => Sys2Proof.Machine.execCOpc s
  | .cH => Sys2Proof.Machine.execCH s
  | .memFetch => Sys2Proof.Machine.execMemFetch s
  | .memRd => Sys2Proof.Machine.execMemRd s
  | .memWr => Sys2Proof.Machine.execMemWr s
  | .mpcNext base => Sys2Proof.Machine.execMpcNext base s
  | .jumpJamn => Sys2Proof.Machine.execJumpJamn s
  | .jumpJamz => Sys2Proof.Machine.execJumpJamz s
  | .jumpJmpc => Sys2Proof.Machine.execJumpJmpc s

end Sys2Proof.Machine
end

