-- ==== Sys2Proof/Machine/Cycle.lean ====
section
/-! DEFINITION. One cycle, the nine steps of 46_cycle_engine.md R130, over the meanings of the rows. -/

namespace Sys2Proof.Machine

/-- Go on from a next state; a fault or a refusal stands. -/
def andThen (o : Host.Outcome State Fault Refusal) (k : State → Host.Outcome State Fault Refusal) :
    Host.Outcome State Fault Refusal :=
  match o with
  | .next s => k s
  | .fault r => .fault r
  | .refused r => .refused r

/-- Run rows one after another, each seeing the writes of those before it (00_scope.md R12). -/
def runRows : List Instr → State → Host.Outcome State Fault Refusal
  | [], s => .next s
  | i :: rest, s => andThen (exec i s) (runRows rest)

/-- The transient values at rest: no cycle sees an earlier cycle's B bus or fault-pending signal
(10_state.md R31, R32). -/
def clearTransients (s : State) : State := { s with busB := 0#32, aluR := 0#32, faultPending := false }

/-- Step 1: fault-pending false, and MIR latched from CS[MPC] (46_cycle_engine.md R130, R131). -/
def beginCycle (s : State) : State := { clearTransients s with mir := controlWord s.cs s.mpc }

/-- Step 9: the termination check (R132), after which nothing inside the cycle is kept. -/
def endCycle (slot : Slot) (s : State) : State := clearTransients (terminationCheck slot s)

/-- The nine steps (R130): latch and decode; B router, ALU, shifter, write-back; the memory unit's bounds check and
requests; the next address; the termination check. -/
def cycle (s : State) : Host.Outcome State Fault Refusal :=
  let f := unpack (controlWord s.cs s.mpc)
  andThen (runRows (datapathRows f) (beginCycle s)) fun s1 =>
  andThen (runRows (memRows f.mem) (boundsCheck s1)) fun s2 =>
  andThen (runRows (nextRows f) s2) fun s3 =>
  .next (endCycle s.mpc s3)

end Sys2Proof.Machine
end

