-- ==== Sys2Proof/Machine/Step.lean ====
section
/-! DEFINITION. The machine's one step, a cycle (46_cycle_engine.md R129), and the placing of one instruction where the
next step fetches it. -/

namespace Sys2Proof.Machine

/-- A cycle while the status is RUNNING; no step otherwise (R129, R134). -/
def step (s : State) : Host.Outcome State Fault Refusal :=
  match s.status with
  | .running => cycle s
  | .haltedNormal => .fault .noStepHaltedNormal
  | .haltedFault => .fault .noStepHaltedFault

/-- `s` with the word whose low `nbits` bits are `w` in the control-store slot that MPC names, and the status RUNNING,
without which nothing is fetched. It stands for the launch that puts a microprogram into the control store
(log entry 3). -/
def State.withFetchWord (s : State) (nbits w : Nat) : State :=
  { s with
    cs := s.cs.set s.mpc.toNat (BitVec.ofNat 36 (w % 2 ^ nbits)) (by have := s.mpc.isLt; omega)
    status := .running }

end Sys2Proof.Machine
end

