-- ==== Sys2Proof/Machine/Launch.lean ====
section
/-! DEFINITION. The launch: the external loader at its interface (70_reset_and_hazards.md R153 to R159). It runs before
the first cycle and is no step of the machine; it gives the state of the first cycle or a load error, after which no
state exists (R159; D25; log entry 9). -/

namespace Sys2Proof.Machine

/-- The load errors, in the order of their codes (60_exceptions.md R137). -/
inductive LoadError where
  /-- LOAD_MISSING_ARG, code 48: no program given. -/
  | missingArg
  /-- LOAD_CS_IO, code 49: the control-store image cannot be opened or read (R155). -/
  | csIo
  /-- LOAD_CS_FORMAT, code 50: not whole records, or more than 512 (R155). -/
  | csFormat (bytes : Nat)
  /-- LOAD_PROG_IO, code 51: the program image cannot be opened (R157). -/
  | progIo
  /-- LOAD_PROG_SHORT, code 52: a short read at some stage (R157). -/
  | progShort (read expected : Nat)
  /-- LOAD_PROG_TOO_LARGE, code 53: `size > CAP` (R157). -/
  | progTooLarge (size : Nat)
  /-- LOAD_PROG_SIZE_SMALL, code 54: `size < 20` (R157). -/
  | progSizeSmall (size : Nat)
  /-- LOAD_PROG_BODY_OVERFLOW, code 55: the body would run past the end of memory (R157). -/
  | progBodyOverflow (size : Nat)
  deriving DecidableEq, Repr

/-- The numeric codes of the load errors (60_exceptions.md R137). -/
def loadErrorCode : LoadError → Nat
  | .missingArg => 48
  | .csIo => 49
  | .csFormat _ => 50
  | .progIo => 51
  | .progShort _ _ => 52
  | .progTooLarge _ => 53
  | .progSizeSmall _ => 54
  | .progBodyOverflow _ => 55

/-- A file as the loader finds it: unreadable, or a byte stream. -/
inductive Image where
  | unreadable
  | bytes (content : List Byte)
  deriving DecidableEq, Repr

/-- Whole records from the front of a byte stream into the slots from `i` on (R154). -/
def loadRecords (cs : Vector MicroWord 512) (i : Nat) : List Byte → Vector MicroWord 512
  | b0 :: b1 :: b2 :: b3 :: b4 :: b5 :: b6 :: b7 :: rest =>
      loadRecords (cs.setIfInBounds i (recordWord b0 b1 b2 b3 b4 b5 b6 b7)) (i + 1) rest
  | _ => cs

/-- LoadCS (R154): the image's records in order, every slot after them 0. -/
def loadControlStore (image : List Byte) : Except LoadError (Vector MicroWord 512) :=
  if image.length % Config.recordBytes ≠ 0 ∨ image.length / Config.recordBytes > Config.slots then
    .error (.csFormat image.length)
  else .ok (loadRecords (Vector.replicate 512 0#36) 0 image)

/-- Bytes into memory from address `a` on. -/
def storeBytes (m : Memory) (a : Nat) : List Byte → Memory
  | [] => m
  | b :: rest => storeBytes (m.write a b) (a + 1) rest

/-- LoadProgram with its checks, in the order of R157: `size`, then the initialization block at address 0, then the body
at ORIGIN; trailing bytes ignored, every other byte of M 0 (R156). -/
def loadProgram (p : Config.Params) : List Byte → Except LoadError Memory
  | p0 :: p1 :: p2 :: p3 :: rest =>
      let size := (wordOfBytes p0 p1 p2 p3).toNat
      if size > p.cap then .error (.progTooLarge size)
      else if size < Config.initBlockBytes then .error (.progSizeSmall size)
      else if p.origin + size - Config.initBlockBytes > p.cap then .error (.progBodyOverflow size)
      else if rest.length < Config.initBlockBytes then
        .error (.progShort rest.length Config.initBlockBytes)
      else if rest.length < size then
        .error (.progShort (rest.length - Config.initBlockBytes) (size - Config.initBlockBytes))
      else
        .ok (storeBytes (storeBytes [] 0 (rest.take Config.initBlockBytes)) p.origin
          ((rest.drop Config.initBlockBytes).take (size - Config.initBlockBytes)))
  | short => .error (.progShort short.length 4)

/-- A launch (R153, R159): no program argument is the first error, then those of the control-store image, then those of
the program image; a launch without error starts the engine in the reset state of 10_state.md R29. -/
def launch (p : Config.Params) (controlStore : Image) (program : Option Image) : Except LoadError State :=
  match program with
  | none => .error .missingArg
  | some program =>
    match controlStore with
    | .unreadable => .error .csIo
    | .bytes csBytes =>
      match loadControlStore csBytes with
      | .error e => .error e
      | .ok cs =>
        match program with
        | .unreadable => .error .progIo
        | .bytes progBytes =>
          match loadProgram p progBytes with
          | .error e => .error e
          | .ok mem => .ok { State.reset with cs := cs, mem := mem, cap := p.cap }

end Sys2Proof.Machine
end

