-- ==== Sys2Proof/Safety.lean ====
section
/-! DEFINITION. The terms in which claims are stated: the values of one cycle, written straight from the rules and not
through the meanings of the rows; the whole cycle as one state; the invariant of the machine; what a row leaves unchanged;
what a run without a bounds fault is. -/

namespace Sys2Proof.Machine

/-! ### The values of one cycle -/

/-- The fields of the microinstruction that the next cycle executes (46_cycle_engine.md R130 steps 1 and 2). -/
def fieldsAt (s : State) : Fields := unpack (controlWord s.cs s.mpc)

/-- The B bus for a B_SEL code (30_encoding.md R56; 41_bbus_router.md R69 to R78). -/
def busValue (code : BitVec 4) (s : State) : Word :=
  match code.toNat with
  | 0 => s.mdr
  | 1 => s.pc
  | 2 => s.mbr.signExtend 32
  | 3 => s.mbr.setWidth 32
  | 4 => s.sp
  | 5 => s.lv
  | 6 => s.cpp
  | 7 => s.tos
  | 8 => s.opc
  | _ => 0xFFFFFFFF#32

/-- The ALU result for an ALU_OP code, with A = H and the invalid codes taken from CL (42_alu_shifter.md R79). -/
def aluValue (code : BitVec 6) (b : Word) (s : State) : Word :=
  match code.toNat with
  | 12 => s.h &&& b
  | 17 => 1#32
  | 18 => 0xFFFFFFFF#32
  | 20 => b
  | 24 => s.h
  | 26 => ~~~s.h
  | 28 => s.h ||| b
  | 44 => ~~~b
  | 53 => b + 1#32
  | 54 => b - 1#32
  | 57 => s.h + 1#32
  | 59 => -s.h
  | 60 => s.h + b
  | 61 => s.h + b + 1#32
  | 63 => b - s.h
  | _ => s.cl

/-- The 15 valid ALU codes (30_encoding.md R59). -/
def validAluCodes : List Nat := [12, 17, 18, 20, 24, 26, 28, 44, 53, 54, 57, 59, 60, 61, 63]

/-- The state after an ALU row whose exact result is the number `r`: r modulo 2^32, with the flags of that result
(42_alu_shifter.md R79, R96, R103). -/
def aluLeaves (r : Nat) (s : State) : State :=
  { s with aluR := BitVec.ofNat 32 r, z := r % 2 ^ 32 == 0, n := r % 2 ^ 32 != 0 }

/-- The C bus for a SHIFT code (42_alu_shifter.md R97). -/
def shiftValue (code : BitVec 2) (r : Word) : Word :=
  match code.toNat with
  | 1 => r <<< 8
  | 2 => r >>> 1
  | _ => r

/-- The ALU result r of the next cycle, from the registers as they stand at its start (41_bbus_router.md R68;
42_alu_shifter.md R79). -/
def aluAt (s : State) : Word := aluValue (fieldsAt s).aluOp (busValue (fieldsAt s).bSel s) s

/-- The C bus c of the next cycle (42_alu_shifter.md R97, R102). -/
def cBusAt (s : State) : Word := shiftValue (fieldsAt s).shift (aluAt s)

/-- The warnings of a cycle in step order (60_exceptions.md R138 to R141). -/
def warningsOf (f : Fields) (slot : Slot) : List Event :=
  (if 9 ≤ f.bSel.toNat then [.badBsel f.bSel slot] else []) ++
  (if f.aluOp.toNat ∈ validAluCodes then [] else [.badAlu f.aluOp slot]) ++
  (if f.shift = 3#2 then [.badShift f.shift slot] else [])

/-- The next address (45_next_address.md R121). -/
def nextAddress (f : Fields) (n z : Bool) (mbr : Byte) : Slot :=
  f.mpcNext ||| (if f.jump.getLsbD 0 && n then 0x100#9 else 0#9) |||
  (if f.jump.getLsbD 1 && z then 0x100#9 else 0#9) |||
  (if f.jump.getLsbD 2 then mbr.setWidth 9 else 0#9)

/-- A destination of the write-back: the C bus where its C_MASK bit is set, unchanged where it is clear
(43_cbus_writeback.md R104). -/
def writtenBack (f : Fields) (bit : Nat) (c old : Word) : Word := if f.cMask.getLsbD bit then c else old

/-- The registers that the write-back of a cycle leaves: the C bus in those whose C_MASK bit is set, the others unchanged;
MDR unless a word read of the same cycle overwrites it (43_cbus_writeback.md R104; 44_memory_unit.md R117). -/
def WrittenBackWords (f : Fields) (c : Word) (s t : State) : Prop :=
  t.mar = writtenBack f 0 c s.mar ∧ (f.mem.getLsbD 1 = false → t.mdr = writtenBack f 1 c s.mdr) ∧
  t.pc = writtenBack f 2 c s.pc ∧ t.sp = writtenBack f 3 c s.sp ∧ t.lv = writtenBack f 4 c s.lv ∧
  t.cpp = writtenBack f 5 c s.cpp ∧ t.tos = writtenBack f 6 c s.tos ∧ t.opc = writtenBack f 7 c s.opc ∧
  t.h = writtenBack f 8 c s.h

/-- One whole cycle as one state, in the nine steps of 46_cycle_engine.md R130, written from the rules of the units. The
three fields that live inside a cycle are left at rest (log entry 1). -/
def cycleResult (s : State) : State :=
  let f := fieldsAt s
  let r := aluAt s
  let c := cBusAt s
  let mar := writtenBack f 0 c s.mar
  let pc := writtenBack f 2 c s.pc
  let ok := Nat.blt pc.toNat s.cap && Nat.blt (4 * mar.toNat) s.cap
  let mbr := if ok && f.mem.getLsbD 0 then s.mem.read pc.toNat else s.mbr
  let mdr := if ok && f.mem.getLsbD 1 then s.mem.readWord (4 * mar.toNat) else writtenBack f 1 c s.mdr
  let mem := if ok && f.mem.getLsbD 2 then s.mem.writeWord (4 * mar.toNat) mdr else s.mem
  { mar := mar
    mdr := mdr
    pc := pc
    sp := writtenBack f 3 c s.sp
    lv := writtenBack f 4 c s.lv
    cpp := writtenBack f 5 c s.cpp
    tos := writtenBack f 6 c s.tos
    opc := writtenBack f 7 c s.opc
    h := writtenBack f 8 c s.h
    mbr := mbr
    mir := controlWord s.cs s.mpc
    mpc := nextAddress f (r != 0#32) (r == 0#32) mbr
    n := r != 0#32
    z := r == 0#32
    cl := c
    status := if mbr = 0xFF#8 then .haltedNormal else if ok then .running else .haltedFault
    cs := s.cs
    mem := mem
    cap := s.cap
    trace := s.trace ++ warningsOf f s.mpc ++
      (if ok then [] else
        [.bounds (Nat.blt pc.toNat s.cap) (Nat.blt (4 * mar.toNat) s.cap) pc mar s.mpc]) ++
      (if mbr = 0xFF#8 then [.haltSentinel pc s.mpc] else [])
    busB := 0#32
    aluR := 0#32
    faultPending := false }

/-! ### The invariant -/

/-- Nothing that lives inside a cycle is kept between cycles (10_state.md R31, R32; log entry 1). -/
def AtRest (s : State) : Prop := s.busB = 0#32 ∧ s.aluR = 0#32 ∧ s.faultPending = false

/-- What each status says of the registers: a running machine has both bounds checks passing and no sentinel latched; a
normal halt has the sentinel, in bounds; a fault halt has a failed check and no sentinel (46_cycle_engine.md R132). -/
def StatusAgrees (s : State) : Prop :=
  match s.status with
  | .running => s.mbr ≠ 0xFF#8 ∧ inBounds s = true
  | .haltedNormal => s.mbr = 0xFF#8 ∧ inBounds s = true
  | .haltedFault => s.mbr ≠ 0xFF#8 ∧ inBounds s = false

/-- The invariant of MIC-1 CORE between cycles. -/
structure Inv (s : State) : Prop where
  /-- CAP meets its constraint (00_scope.md R5). -/
  capOk : Config.CapOk s.cap
  /-- Memory is in canonical form. -/
  memCanonical : s.mem.wf = true
  /-- Memory holds no byte at or above CAP (20_memory.md R35, R41). -/
  memWithinCap : ∀ c ∈ s.mem, c.1 < s.cap
  /-- No transient value is kept. -/
  atRest : AtRest s
  /-- The status agrees with MBR and the bounds checks. -/
  statusAgrees : StatusAgrees s

/-- A run has raised no bounds fault: its trace holds no BOUNDS event (93_implementation_defined.md I11). -/
def NoBoundsFault (s : State) : Prop := ∀ e ∈ s.trace, eventCode e ≠ 16

/-! ### What a row leaves unchanged -/

/-- The nine C-bus registers are the same. -/
def SameWords (s t : State) : Prop :=
  t.mar = s.mar ∧ t.mdr = s.mdr ∧ t.pc = s.pc ∧ t.sp = s.sp ∧ t.lv = s.lv ∧ t.cpp = s.cpp ∧ t.tos = s.tos ∧
  t.opc = s.opc ∧ t.h = s.h

/-- MIR, the engine status, the control store and the capacity are the same: no row writes them. -/
def SameControl (s t : State) : Prop :=
  t.mir = s.mir ∧ t.status = s.status ∧ t.cs = s.cs ∧ t.cap = s.cap

/-- Both flags are the same. -/
def SameFlags (s t : State) : Prop := t.n = s.n ∧ t.z = s.z

/-- Every byte of memory reads the same. -/
def SameMemory (s t : State) : Prop := ∀ a, t.mem.read a = s.mem.read a

/-- The values inside the cycle are the same. -/
def SameTransients (s t : State) : Prop := t.busB = s.busB ∧ t.aluR = s.aluR ∧ t.faultPending = s.faultPending

/-! ### What the launch images say -/

/-- Byte `k` of an image, 0 past its end. -/
def imageByteAt (image : List Byte) (k : Nat) : Byte := image.getD k 0#8

/-- What a control-store image puts into slot `i`: bits 35:0 of record `i`'s little-endian value, 0 where the image has no
record `i` (70_reset_and_hazards.md R154). -/
def imageSlot (image : List Byte) (i : Nat) : MicroWord :=
  if 8 * i < image.length then
    recordWord (imageByteAt image (8 * i)) (imageByteAt image (8 * i + 1)) (imageByteAt image (8 * i + 2))
      (imageByteAt image (8 * i + 3)) (imageByteAt image (8 * i + 4)) (imageByteAt image (8 * i + 5))
      (imageByteAt image (8 * i + 6)) (imageByteAt image (8 * i + 7))
  else 0#36

/-- The `size` field of a program image (70_reset_and_hazards.md R156). -/
def imageSize (image : List Byte) : Nat :=
  (imageByteAt image 0).toNat + (imageByteAt image 1).toNat * 2 ^ 8 + (imageByteAt image 2).toNat * 2 ^ 16 +
    (imageByteAt image 3).toNat * 2 ^ 24

/-- What a program image puts into main memory at address `a` (20_memory.md R44; 70_reset_and_hazards.md R156). -/
def imageMemory (p : Config.Params) (image : List Byte) (a : Nat) : Byte :=
  if a < 20 then imageByteAt image (4 + a)
  else if p.origin ≤ a ∧ a < p.origin + (imageSize image - 20) then imageByteAt image (24 + (a - p.origin))
  else 0#8

end Sys2Proof.Machine
end

