-- ==== Sys2Proof/Certificates/Slice0/Obligations.lean ====
section
/-! DEFINITION. Statements for the provers, from the numbered rules of spec/. Each says what a row, a cycle, the reset or
the launch does. Statements about a row quantify over every state; statements about a cycle over every running state. -/

open Sys2Proof Sys2Proof.Machine

/-! ### Encoding (30_encoding.md) -/

/-- R54: the seven fields pack into a word and unpack from it without loss, by the formula of the rule. -/
def Obligations.FieldsPackAndUnpackWithoutLoss : Prop :=
  (∀ w : MicroWord, pack (unpack w) = w) ∧ (∀ f : Fields, unpack (pack f) = f) ∧
  ∀ f : Fields, pack f = (f.mpcNext.setWidth 36 <<< 27 ||| f.jump.setWidth 36 <<< 24 ||| f.shift.setWidth 36 <<< 22 |||
    f.aluOp.setWidth 36 <<< 16 ||| f.cMask.setWidth 36 <<< 7 ||| f.mem.setWidth 36 <<< 4 ||| f.bSel.setWidth 36)

/-- Headline: every whole microinstruction, with its operand at every value, is read back from its word, and every word
is the word of the microinstruction decoded from it. -/
def Obligations.DecodeEncodeRoundTrip : Prop :=
  (∀ ops : Microinstr, wellFormed ops = true → decode (encode ops) = ops) ∧
  ∀ w : MicroWord, wellFormed (decode w) = true ∧ encode (decode w) = w

/-- The opcode table: a word holds a row exactly when it agrees with the row's match under the row's mask. -/
def Obligations.DecoderReadsARowWhereItsMaskMatches : Prop :=
  ∀ (i : Instr) (w : MicroWord), i ∈ decode w ↔ w &&& rowMask i = rowMatch i

/-- R55: of a control-store record only bits 35:0 are decoded and stored. -/
def Obligations.RecordBitsAbove35AreIgnored : Prop :=
  (∀ (v : BitVec 64) (rest : List Byte), decodeRecord (recordOf v ++ rest) = .ok (decode (v.setWidth 36), rest)) ∧
  ∀ v : BitVec 64, ∃ cs, loadControlStore (recordOf v) = .ok cs ∧ controlWord cs 0#9 = v.setWidth 36

/-- Words of 95_test_vectors.md section 2.1, written out there from the field positions, decode to their rows. -/
def Obligations.SpecWordsDecodeToTheirRows : Prop :=
  decode 0x000140201#36 = [.bPc, .aluB, .shiftNone, .cPc, .mpcNext 0x000#9] ∧
  decode 0x004350211#36 = [.bPc, .aluIncB, .shiftNone, .cPc, .memFetch, .mpcNext 0x000#9, .jumpJmpc] ∧
  decode 0x008518000#36 = [.bMdr, .aluOne, .shiftSll8, .cH, .mpcNext 0x001#9] ∧
  decode 0x0981100C0#36 = [.bMdr, .aluOne, .shiftNone, .cMar, .memWr, .mpcNext 0x013#9] ∧
  decode 0x0C23F4000#36 = [.bMdr, .aluSub, .shiftNone, .cOpc, .mpcNext 0x018#9, .jumpJamz] ∧
  decode 0x031360404#36 = [.bSp, .aluDecB, .shiftNone, .cSp, .mpcNext 0x006#9, .jumpJamn] ∧
  decode 0x000000000#36 = [.bMdr, .aluInvalid0, .shiftNone, .mpcNext 0x000#9]

/-- The host's reading of a table word gives the row whose bits it holds, for every row that sets a bit. Which row a
word stands for is the model's choice (log entry 5). -/
def Obligations.TableWordsReadTheirRow : Prop :=
  ∀ i : Instr, rowMatch i ≠ 0#36 → decodeTableWord 40 (rowMatch i).toNat = some i

/-! ### The step (46_cycle_engine.md) -/

/-- A step of a running machine runs the rows decoded from the control-store word at MPC: those of steps 3 to 6, then the
bounds check and the rows of steps 7 and 8, with the latch of step 1 before and the termination check of step 9 after. -/
def Obligations.StepRunsTheDecodedMicroinstruction : Prop :=
  ∀ s : State, s.status = .running →
    step s =
      andThen (runRows ((decode (controlWord s.cs s.mpc)).filter fun i => i.rank < 12) (beginCycle s)) fun s1 =>
      andThen (runRows ((decode (controlWord s.cs s.mpc)).filter fun i => 12 ≤ i.rank) (boundsCheck s1)) fun s2 =>
      .next (endCycle s.mpc s2)

/-- What `withFetchWord` places is what the next step runs, and it changes nothing but the slot MPC names and the status.
The placing stands for a launch (log entry 3). -/
def Obligations.FetchWordIsWhatTheNextStepRuns : Prop :=
  ∀ (s : State) (nbits w : Nat),
    fieldsAt (s.withFetchWord nbits w) = unpack (BitVec.ofNat 36 (w % 2 ^ nbits)) ∧
    step (s.withFetchWord nbits w) = cycle (s.withFetchWord nbits w) ∧
    (∀ k : Slot, k ≠ s.mpc → controlWord (s.withFetchWord nbits w).cs k = controlWord s.cs k) ∧
    s.withFetchWord nbits w = { s with cs := (s.withFetchWord nbits w).cs, status := .running }

/-- A running machine always has its one next state, and a halted machine has no step (46_cycle_engine.md R129). That
`step` answers the lack of a step with a fault that names the status is the model's choice (log entry 7). -/
def Obligations.StepExistsExactlyWhileRunning : Prop :=
  ∀ s : State, (s.status = .running → ∃ t, step s = .next t) ∧
    (s.status = .haltedNormal → step s = .fault .noStepHaltedNormal) ∧
    (s.status = .haltedFault → step s = .fault .noStepHaltedFault)

/-- The step is the nine-step cycle, every register, flag, byte and event of it (46_cycle_engine.md R130, R131). That
`busB`, `aluR` and `faultPending` are fields of the state, and that `cycleResult` leaves them 0, 0 and false, is the
model's choice (log entry 1). -/
def Obligations.StepIsTheNineStepCycle : Prop :=
  ∀ s : State, s.status = .running → step s = .next (cycleResult s)

/-! ### B-bus router (41_bbus_router.md) -/

/-- R69 to R77: each valid B_SEL row puts its register on the B bus, changes nothing else, and what reaches the C bus in a
cycle was on the bus before any write of that cycle. -/
def Obligations.BusRowsDriveTheirRegister : Prop :=
  (bRow 0#4 = .bMdr ∧ bRow 1#4 = .bPc ∧ bRow 2#4 = .bMbr ∧ bRow 3#4 = .bMbru ∧ bRow 4#4 = .bSp ∧ bRow 5#4 = .bLv ∧
    bRow 6#4 = .bCpp ∧ bRow 7#4 = .bTos ∧ bRow 8#4 = .bOpc) ∧
  (∀ s : State,
    exec .bMdr s = .next { s with busB := s.mdr } ∧
    exec .bPc s = .next { s with busB := s.pc } ∧
    exec .bMbr s = .next { s with
      busB := if s.mbr.getLsbD 7 then 0xFFFFFF00#32 ||| s.mbr.setWidth 32 else s.mbr.setWidth 32 } ∧
    exec .bMbru s = .next { s with busB := s.mbr.setWidth 32 } ∧
    exec .bSp s = .next { s with busB := s.sp } ∧
    exec .bLv s = .next { s with busB := s.lv } ∧
    exec .bCpp s = .next { s with busB := s.cpp } ∧
    exec .bTos s = .next { s with busB := s.tos } ∧
    exec .bOpc s = .next { s with busB := s.opc }) ∧
  ∀ s : State, s.status = .running → ∃ t, step s = .next t ∧
    t.cl = shiftValue (fieldsAt s).shift (aluValue (fieldsAt s).aluOp (busValue (fieldsAt s).bSel s) s)

/-- R78, R138: each invalid B_SEL row (codes 9 to 15) puts all ones on the bus and warns; the cycle warns whatever its
ALU_OP is; INCB and NOTB of it give 0, and B of it reaches H as all ones. -/
def Obligations.InvalidSelectorsDriveAllOnes : Prop :=
  (∀ (c : BitVec 4) (s : State), 9 ≤ c.toNat →
    exec (bRow c) s = .next { s with busB := 0xFFFFFFFF#32, trace := s.trace ++ [.badBsel c s.mpc] } ∧
    (∃ t, runRows [bRow c, .aluIncB] s = .next t ∧ t.aluR = 0#32 ∧ t.z = true) ∧
    (∃ t, runRows [bRow c, .aluNotB] s = .next t ∧ t.aluR = 0#32) ∧
    (∃ t, runRows [bRow c, .aluB, .shiftNone, .cH] s = .next t ∧ t.h = 0xFFFFFFFF#32 ∧ t.n = true ∧ t.z = false ∧
      t.trace = s.trace ++ [.badBsel c s.mpc])) ∧
  ∀ s : State, s.status = .running → 9 ≤ (fieldsAt s).bSel.toNat → ∃ t later, step s = .next t ∧
    t.trace = s.trace ++ .badBsel (fieldsAt s).bSel s.mpc :: later

/-- Frame of the B_SEL rows: only the B bus and, for an invalid code, the trace. -/
def Obligations.BusRowsLeaveTheRestUnchanged : Prop :=
  ∀ (c : BitVec 4) (s : State), ∃ t, exec (bRow c) s = .next t ∧ SameWords s t ∧ t.mbr = s.mbr ∧ t.mpc = s.mpc ∧
    SameControl s t ∧ SameFlags s t ∧ t.cl = s.cl ∧ SameMemory s t ∧ t.aluR = s.aluR ∧
    t.faultPending = s.faultPending ∧ (c.toNat < 9 → t.trace = s.trace)

/-! ### ALU, flags and shifter (42_alu_shifter.md) -/

/-- R80, R83 to R87: the logic rows, with the flags of R96. -/
def Obligations.AluLogicRows : Prop :=
  (aluRow 12#6 = .aluAnd ∧ aluRow 20#6 = .aluB ∧ aluRow 24#6 = .aluH ∧ aluRow 26#6 = .aluNotH ∧ aluRow 28#6 = .aluOr ∧
    aluRow 44#6 = .aluNotB) ∧
  ∀ s : State,
    exec .aluAnd s = .next { s with aluR := s.h &&& s.busB, z := s.h &&& s.busB == 0#32, n := s.h &&& s.busB != 0#32 } ∧
    exec .aluB s = .next { s with aluR := s.busB, z := s.busB == 0#32, n := s.busB != 0#32 } ∧
    exec .aluH s = .next { s with aluR := s.h, z := s.h == 0#32, n := s.h != 0#32 } ∧
    exec .aluNotH s = .next { s with aluR := ~~~s.h, z := ~~~s.h == 0#32, n := ~~~s.h != 0#32 } ∧
    exec .aluOr s = .next { s with aluR := s.h ||| s.busB, z := s.h ||| s.busB == 0#32, n := s.h ||| s.busB != 0#32 } ∧
    exec .aluNotB s = .next { s with aluR := ~~~s.busB, z := ~~~s.busB == 0#32, n := ~~~s.busB != 0#32 }

/-- R88 to R94: the arithmetic rows, modulo 2^32 as numbers, with the flags of R96; each writes its result and the flags
only. -/
def Obligations.AluArithmeticRows : Prop :=
  (aluRow 53#6 = .aluIncB ∧ aluRow 54#6 = .aluDecB ∧ aluRow 57#6 = .aluIncH ∧ aluRow 59#6 = .aluNegH ∧
    aluRow 60#6 = .aluAdd ∧ aluRow 61#6 = .aluAddInc ∧ aluRow 63#6 = .aluSub) ∧
  ∀ s : State,
    exec .aluIncB s = .next (aluLeaves (s.busB.toNat + 1) s) ∧
    exec .aluDecB s = .next (aluLeaves (s.busB.toNat + (2 ^ 32 - 1)) s) ∧
    exec .aluIncH s = .next (aluLeaves (s.h.toNat + 1) s) ∧
    exec .aluNegH s = .next (aluLeaves (2 ^ 32 - s.h.toNat) s) ∧
    exec .aluAdd s = .next (aluLeaves (s.h.toNat + s.busB.toNat) s) ∧
    exec .aluAddInc s = .next (aluLeaves (s.h.toNat + s.busB.toNat + 1) s) ∧
    exec .aluSub s = .next (aluLeaves (s.busB.toNat + (2 ^ 32 - s.h.toNat)) s)

/-- R81, R82: the constant rows, whatever B and H are, and what the shifter makes of them. -/
def Obligations.AluConstantRows : Prop :=
  (aluRow 17#6 = .aluOne ∧ aluRow 18#6 = .aluMinus1) ∧
  ∀ s : State,
    exec .aluOne s = .next { s with aluR := 1#32, z := false, n := true } ∧
    exec .aluMinus1 s = .next { s with aluR := 0xFFFFFFFF#32, z := false, n := true } ∧
    (∃ t, runRows [.aluOne, .shiftSll8] s = .next t ∧ t.cl = 0x100#32 ∧ t.n = true ∧ t.z = false) ∧
    (∃ t, runRows [.aluOne, .shiftSrl1] s = .next t ∧ t.cl = 0#32 ∧ t.n = true ∧ t.z = false) ∧
    (∃ t, runRows [.aluMinus1, .shiftSrl1] s = .next t ∧ t.cl = 0x7FFFFFFF#32)

/-- R95, R139: each of the 49 invalid ALU rows takes CL as its result, with the flags of that result and a warning; in a
cycle the shift applies to it, and after reset it is 0. -/
def Obligations.InvalidAluCodesTakeTheLatch : Prop :=
  (∀ (c : BitVec 6) (s : State), c.toNat ∉ validAluCodes →
    exec (aluRow c) s = .next { s with
      aluR := s.cl, z := s.cl == 0#32, n := s.cl != 0#32, trace := s.trace ++ [.badAlu c s.mpc] }) ∧
  (∀ s : State, s.status = .running → (fieldsAt s).aluOp.toNat ∉ validAluCodes → ∃ t, step s = .next t ∧
    t.cl = shiftValue (fieldsAt s).shift s.cl ∧ t.z = (s.cl == 0#32) ∧ t.n = (s.cl != 0#32) ∧
    Event.badAlu (fieldsAt s).aluOp s.mpc ∈ t.trace) ∧
  State.reset.cl = 0#32

/-- R96: after every ALU row, and after every cycle, Z says that the ALU result is 0 and N that it is not. The result is
the one before the shift, and the same cycle's next address reads these flags. -/
def Obligations.FlagsTestTheAluResultForZero : Prop :=
  (∀ (c : BitVec 6) (s : State), ∃ t, exec (aluRow c) s = .next t ∧
    ((t.aluR = 0#32 ∧ t.z = true ∧ t.n = false) ∨ (t.aluR ≠ 0#32 ∧ t.z = false ∧ t.n = true))) ∧
  ∀ s : State, s.status = .running → ∃ t, step s = .next t ∧
    ((aluAt s = 0#32 ∧ t.z = true ∧ t.n = false) ∨ (aluAt s ≠ 0#32 ∧ t.z = false ∧ t.n = true)) ∧
    t.mpc = nextAddress (fieldsAt s) t.n t.z t.mbr

/-- Frame of the ALU rows: only the result, the flags and, for an invalid code, the trace. -/
def Obligations.AluRowsLeaveTheRestUnchanged : Prop :=
  ∀ (c : BitVec 6) (s : State), ∃ t, exec (aluRow c) s = .next t ∧ SameWords s t ∧ t.mbr = s.mbr ∧ t.mpc = s.mpc ∧
    SameControl s t ∧ t.cl = s.cl ∧ SameMemory s t ∧ t.busB = s.busB ∧ t.faultPending = s.faultPending ∧
    (c.toNat ∈ validAluCodes → t.trace = s.trace)

/-- R98 to R101, R140: the four SHIFT rows put their C-bus value in CL; the left shift drops r[31:24], the right shift
fills with zero, the invalid code shifts nothing and warns. A cycle leaves that C bus, and its flags come from the value
before the shift. -/
def Obligations.ShiftRowsDriveTheCBus : Prop :=
  (shiftRow 0#2 = .shiftNone ∧ shiftRow 1#2 = .shiftSll8 ∧ shiftRow 2#2 = .shiftSrl1 ∧ shiftRow 3#2 = .shiftInvalid3) ∧
  (∀ s : State,
    exec .shiftNone s = .next { s with cl := s.aluR } ∧
    exec .shiftSll8 s = .next { s with cl := BitVec.ofNat 32 (s.aluR.toNat * 2 ^ 8) } ∧
    exec .shiftSrl1 s = .next { s with cl := BitVec.ofNat 32 (s.aluR.toNat / 2) } ∧
    exec .shiftInvalid3 s = .next { s with cl := s.aluR, trace := s.trace ++ [.badShift 3#2 s.mpc] }) ∧
  ∀ s : State, s.status = .running → ∃ t, step s = .next t ∧ t.z = (aluAt s == 0#32) ∧ t.n = (aluAt s != 0#32) ∧
    ((fieldsAt s).shift = 0#2 → t.cl = aluAt s) ∧
    ((fieldsAt s).shift = 1#2 → t.cl = BitVec.ofNat 32 ((aluAt s).toNat * 2 ^ 8)) ∧
    ((fieldsAt s).shift = 2#2 → t.cl = BitVec.ofNat 32 ((aluAt s).toNat / 2)) ∧
    ((fieldsAt s).shift = 3#2 → t.cl = aluAt s ∧ Event.badShift 3#2 s.mpc ∈ t.trace)

/-- Frame of the SHIFT rows: only CL and, for the invalid code, the trace. -/
def Obligations.ShiftRowsLeaveTheRestUnchanged : Prop :=
  ∀ (c : BitVec 2) (s : State), ∃ t, exec (shiftRow c) s = .next t ∧ SameWords s t ∧ t.mbr = s.mbr ∧ t.mpc = s.mpc ∧
    SameControl s t ∧ SameFlags s t ∧ SameMemory s t ∧ SameTransients s t ∧ (c ≠ 3#2 → t.trace = s.trace)

/-- R102: CL ends every cycle with that cycle's C bus, whatever C_MASK is; the write-back of the same cycle reads that
value, and an invalid ALU code of the next cycle takes it from CL. -/
def Obligations.LatchCarriesTheCBusToTheNextCycle : Prop :=
  ∀ s : State, s.status = .running → ∃ t, step s = .next t ∧ t.cl = cBusAt s ∧
    WrittenBackWords (fieldsAt s) (cBusAt s) s t ∧ ((fieldsAt t).aluOp.toNat ∉ validAluCodes → aluAt t = cBusAt s)

/-- R163, R164: what a cycle puts on the C bus comes from the registers at its start, and that value is what its selected
registers hold afterwards; so `H = H + 1` and `PC = PC + 1` read the old value. A word read reaches the B bus one cycle
later and a word write in the same cycle, and it overwrites what the write-back put into MDR. -/
def Obligations.CBusComesFromTheStartOfTheCycle : Prop :=
  (∀ s : State, s.status = .running → ∃ t, step s = .next t ∧ t.cl = cBusAt s ∧
    WrittenBackWords (fieldsAt s) (cBusAt s) s t) ∧
  (∀ s : State, (∃ t, runRows [.aluIncH, .shiftNone, .cH] s = .next t ∧ t.h = s.h + 1#32) ∧
    ∃ t, runRows [.bPc, .aluIncB, .shiftNone, .cPc] s = .next t ∧ t.pc = s.pc + 1#32) ∧
  ∀ s : State, inBounds s = true →
    (∃ t, runRows [.bMdr, .aluB, .shiftNone, .memRd] s = .next t ∧ t.cl = s.mdr ∧
      t.mdr = s.mem.readWord (4 * s.mar.toNat) ∧ exec .bMdr t = .next { t with busB := t.mdr }) ∧
    (∃ t, runRows [.cMdr, .memRd] s = .next t ∧ t.mdr = s.mem.readWord (4 * s.mar.toNat)) ∧
    ∃ t, runRows [.memRd, .memWr] s = .next t ∧ t.mdr = s.mem.readWord (4 * s.mar.toNat) ∧
      t.mem = s.mem.writeWord (4 * s.mar.toNat) t.mdr

/-! ### Write-back (43_cbus_writeback.md) -/

/-- R105 to R113: each C_MASK row copies the C bus, held in CL since the shift step, into its one register. -/
def Obligations.WriteBackRowsCopyTheCBus : Prop :=
  (cRows 0x001#9 = [.cMar] ∧ cRows 0x002#9 = [.cMdr] ∧ cRows 0x004#9 = [.cPc] ∧ cRows 0x008#9 = [.cSp] ∧
    cRows 0x010#9 = [.cLv] ∧ cRows 0x020#9 = [.cCpp] ∧ cRows 0x040#9 = [.cTos] ∧ cRows 0x080#9 = [.cOpc] ∧
    cRows 0x100#9 = [.cH]) ∧
  ∀ s : State,
    exec .cMar s = .next { s with mar := s.cl } ∧
    exec .cMdr s = .next { s with mdr := s.cl } ∧
    exec .cPc s = .next { s with pc := s.cl } ∧
    exec .cSp s = .next { s with sp := s.cl } ∧
    exec .cLv s = .next { s with lv := s.cl } ∧
    exec .cCpp s = .next { s with cpp := s.cl } ∧
    exec .cTos s = .next { s with tos := s.cl } ∧
    exec .cOpc s = .next { s with opc := s.cl } ∧
    exec .cH s = .next { s with h := s.cl }

/-- R104: the whole write-back step copies the C bus into exactly the registers whose mask bit is set; in a cycle it is
that cycle's C bus, and a mask of zero writes none of the nine registers but for a word read into MDR. -/
def Obligations.WriteBackFollowsTheMask : Prop :=
  (∀ (mask : BitVec 9) (s : State), runRows (cRows mask) s = .next { s with
    mar := if mask.getLsbD 0 then s.cl else s.mar
    mdr := if mask.getLsbD 1 then s.cl else s.mdr
    pc := if mask.getLsbD 2 then s.cl else s.pc
    sp := if mask.getLsbD 3 then s.cl else s.sp
    lv := if mask.getLsbD 4 then s.cl else s.lv
    cpp := if mask.getLsbD 5 then s.cl else s.cpp
    tos := if mask.getLsbD 6 then s.cl else s.tos
    opc := if mask.getLsbD 7 then s.cl else s.opc
    h := if mask.getLsbD 8 then s.cl else s.h }) ∧
  ∀ s : State, s.status = .running → ∃ t, step s = .next t ∧ WrittenBackWords (fieldsAt s) (cBusAt s) s t ∧
    ((fieldsAt s).cMask = 0#9 → t.mar = s.mar ∧ ((fieldsAt s).mem.getLsbD 1 = false → t.mdr = s.mdr) ∧ t.pc = s.pc ∧
      t.sp = s.sp ∧ t.lv = s.lv ∧ t.cpp = s.cpp ∧ t.tos = s.tos ∧ t.opc = s.opc ∧ t.h = s.h)

/-- Frame of the C_MASK rows, for any subset of them: flags, MBR, MIR, MPC, CL, memory, trace and what lives inside the
cycle. -/
def Obligations.WriteBackRowsLeaveTheRestUnchanged : Prop :=
  ∀ (mask : BitVec 9) (s : State), ∃ t, runRows (cRows mask) s = .next t ∧ SameFlags s t ∧ t.mbr = s.mbr ∧
    t.mpc = s.mpc ∧ SameControl s t ∧ t.cl = s.cl ∧ SameMemory s t ∧ t.trace = s.trace ∧ SameTransients s t

/-! ### Memory (20_memory.md, 44_memory_unit.md) -/

/-- R116 to R118: the three requests, where the bounds check passes. -/
def Obligations.MemoryRowsAccessInBounds : Prop :=
  (memRows 0b001#3 = [.memFetch] ∧ memRows 0b010#3 = [.memRd] ∧ memRows 0b100#3 = [.memWr]) ∧
  ∀ s : State, s.pc.toNat < s.cap → 4 * s.mar.toNat < s.cap →
    exec .memFetch s = .next { s with mbr := s.mem.read s.pc.toNat } ∧
    exec .memRd s = .next { s with mdr := s.mem.readWord (4 * s.mar.toNat) } ∧
    exec .memWr s = .next { s with mem := s.mem.writeWord (4 * s.mar.toNat) s.mdr }

/-- R115: where a bounds check fails, no request is performed; the fault is raised, once in a cycle. -/
def Obligations.MemoryRowsFaultOutOfBounds : Prop :=
  ∀ (s : State) (i : Instr), i ∈ [Instr.memFetch, .memRd, .memWr] → (s.cap ≤ s.pc.toNat ∨ s.cap ≤ 4 * s.mar.toNat) →
    (s.faultPending = true → exec i s = .next s) ∧
    (s.faultPending = false → exec i s = .next { s with
      faultPending := true
      trace := s.trace ++ [.bounds (pcOk s) (marOk s) s.pc s.mar s.mpc] })

/-- Frame of the MEM rows: fetch writes MBR, rd MDR, wr the four bytes from 4 * MAR on; a failed check only the trace and
the fault-pending signal. -/
def Obligations.MemoryRowsLeaveTheRestUnchanged : Prop :=
  ∀ (s : State) (i : Instr), i ∈ [Instr.memFetch, .memRd, .memWr] → s.mem.wf = true → ∃ t, exec i s = .next t ∧
    t.mar = s.mar ∧ t.pc = s.pc ∧ t.sp = s.sp ∧ t.lv = s.lv ∧ t.cpp = s.cpp ∧ t.tos = s.tos ∧ t.opc = s.opc ∧ t.h = s.h ∧
    (i ≠ .memRd → t.mdr = s.mdr) ∧ (i ≠ .memFetch → t.mbr = s.mbr) ∧
    (i ≠ .memWr → SameMemory s t) ∧
    (∀ a, ¬(4 * s.mar.toNat ≤ a ∧ a < 4 * s.mar.toNat + 4) → t.mem.read a = s.mem.read a) ∧
    t.mpc = s.mpc ∧ SameControl s t ∧ SameFlags s t ∧ t.cl = s.cl ∧ t.busB = s.busB ∧ t.aluR = s.aluR ∧
    (inBounds s = true → t.trace = s.trace ∧ t.faultPending = s.faultPending)

/-- R119: the requests of one cycle happen in the order fetch, rd, wr: a fetch with a write gets the old byte, and rd with
wr loads MDR and leaves every byte as it was. -/
def Obligations.SameCycleAccessesAreFetchReadWrite : Prop :=
  ∀ (bits : BitVec 3) (s : State), inBounds s = true → s.mem.wf = true → ∃ t, runRows (memRows bits) s = .next t ∧
    t.mbr = (if bits.getLsbD 0 then s.mem.read s.pc.toNat else s.mbr) ∧
    t.mdr = (if bits.getLsbD 1 then s.mem.readWord (4 * s.mar.toNat) else s.mdr) ∧
    (bits.getLsbD 2 = false → t.mem = s.mem) ∧
    (bits.getLsbD 2 = true → t.mem = s.mem.writeWord (4 * s.mar.toNat) t.mdr) ∧
    (bits.getLsbD 1 = true → SameMemory s t)

/-- R37, R38: words are little-endian over the bytes that fetches see: byte p is lane p mod 4 of word p div 4, and a word
written is read back and found byte by byte. -/
def Obligations.WordsAndBytesShareOneArray : Prop :=
  (∀ (m : Memory) (a : Nat), m.readWord a = (m.read a).setWidth 32 ||| (m.read (a + 1)).setWidth 32 <<< 8 |||
    (m.read (a + 2)).setWidth 32 <<< 16 ||| (m.read (a + 3)).setWidth 32 <<< 24) ∧
  (∀ (m : Memory) (p : Nat), m.read p = (m.readWord (4 * (p / 4))).extractLsb' (8 * (p % 4)) 8) ∧
  ∀ (m : Memory) (w : Nat) (v : Word), m.wf = true → (m.writeWord (4 * w) v).readWord (4 * w) = v ∧
    (∀ k, k < 4 → (m.writeWord (4 * w) v).read (4 * w + k) = v.extractLsb' (8 * k) 8) ∧
    ∀ a, a / 4 ≠ w → (m.writeWord (4 * w) v).read a = m.read a

/-- R162: the memory unit of a cycle sees that cycle's write-back: the new PC, the new MAR and the new MDR. -/
def Obligations.MemoryUnitSeesTheWriteBack : Prop :=
  ∀ s : State, s.status = .running → ∃ t, step s = .next t ∧
    t.mar = writtenBack (fieldsAt s) 0 (cBusAt s) s.mar ∧ t.pc = writtenBack (fieldsAt s) 2 (cBusAt s) s.pc ∧
    (inBounds t = true →
      ((fieldsAt s).mem.getLsbD 0 = true → t.mbr = s.mem.read t.pc.toNat) ∧
      ((fieldsAt s).mem.getLsbD 1 = true → t.mdr = s.mem.readWord (4 * t.mar.toNat)) ∧
      ((fieldsAt s).mem.getLsbD 1 = false → t.mdr = writtenBack (fieldsAt s) 1 (cBusAt s) s.mdr) ∧
      ((fieldsAt s).mem.getLsbD 2 = true → t.mem = s.mem.writeWord (4 * t.mar.toNat) t.mdr)) ∧
    (inBounds t = false → t.status ≠ .running)

/-! ### Bounds faults (44_memory_unit.md, 60_exceptions.md) -/

/-- R115, R120, R142, R143: both checks run in every cycle, whatever MEM holds, on the new PC and MAR. If one fails, the
cycle accesses nothing, keeps its earlier writes, records one BOUNDS event and halts with a fault; if both pass, it records
none and does not. -/
def Obligations.BoundsFaultHaltsTheCycle : Prop :=
  ∀ s : State, s.status = .running → s.mbr ≠ 0xFF#8 → ∃ t, step s = .next t ∧
    (inBounds t = false →
      t.status = .haltedFault ∧ t.mem = s.mem ∧ t.mbr = s.mbr ∧ t.mdr = writtenBack (fieldsAt s) 1 (cBusAt s) s.mdr ∧
      WrittenBackWords (fieldsAt s) (cBusAt s) s t ∧
      t.cl = cBusAt s ∧ t.z = (aluAt s == 0#32) ∧ t.n = (aluAt s != 0#32) ∧
      t.trace = s.trace ++ warningsOf (fieldsAt s) s.mpc ++
        [.bounds (pcOk t) (marOk t) t.pc t.mar s.mpc]) ∧
    (inBounds t = true → t.status ≠ .haltedFault ∧
      ∃ events, t.trace = s.trace ++ events ∧ ∀ e ∈ events, eventCode e ≠ 16)

/-- A run without a BOUNDS event is a run that no bounds fault has ended (93_implementation_defined.md I11). -/
def Obligations.NoBoundsEventMeansNoFaultHalt : Prop :=
  ∀ s t : State, s.mbr ≠ 0xFF#8 → NoBoundsFault s → step s = .next t →
    (NoBoundsFault t ↔ t.status ≠ .haltedFault)

/-! ### Next address (45_next_address.md) -/

/-- The NEXT row and the three JUMP rows: the base replaces MPC; JAMN and JAMZ OR their flag into bit 8; JMPC ORs MBR into
bits 7:0. -/
def Obligations.NextAddressRows : Prop :=
  (jumpRows 0b000#3 = [] ∧ jumpRows 0b001#3 = [.jumpJamn] ∧ jumpRows 0b010#3 = [.jumpJamz] ∧
    jumpRows 0b100#3 = [.jumpJmpc]) ∧
  ∀ s : State,
    (∀ base, exec (.mpcNext base) s = .next { s with mpc := base }) ∧
    exec .jumpJamn s = .next { s with mpc := s.mpc ||| (if s.n then 0x100#9 else 0#9) } ∧
    exec .jumpJamz s = .next { s with mpc := s.mpc ||| (if s.z then 0x100#9 else 0#9) } ∧
    exec .jumpJmpc s = .next { s with mpc := s.mpc ||| s.mbr.setWidth 9 }

/-- R121 to R124: step 8 as a whole, and the MPC that every cycle leaves: the base ORed with the contributions, from the
flags and the MBR of that same cycle. After a fault halt too, MPC is the output of step 8 (46_cycle_engine.md R136). -/
def Obligations.NextAddressIsTheOrOfItsParts : Prop :=
  (∀ (f : Fields) (s : State), runRows (nextRows f) s = .next { s with mpc := nextAddress f s.n s.z s.mbr }) ∧
  ∀ s : State, s.status = .running → ∃ t, step s = .next t ∧ t.mpc = nextAddress (fieldsAt s) t.n t.z t.mbr ∧
    ((fieldsAt s).jump = 0#3 → t.mpc = (fieldsAt s).mpcNext)

/-- R126: with JAMN and JAMZ both set, the next address always has bit 8 set. -/
def Obligations.BothConditionBitsAlwaysTakeTheHighSlot : Prop :=
  ∀ s : State, s.status = .running → (fieldsAt s).jump.getLsbD 0 = true → (fieldsAt s).jump.getLsbD 1 = true →
    ∃ t, step s = .next t ∧ t.mpc.getLsbD 8 = true ∧
      ((fieldsAt s).jump = 3#3 → t.mpc = (fieldsAt s).mpcNext ||| 0x100#9)

/-- R165: a fetched byte is in MBR for JMPC and for the termination check of the same cycle, on the B bus from the next
cycle on, and there until the next fetch. -/
def Obligations.FetchedByteIsSeenInItsCycleAndAfter : Prop :=
  ∀ s : State, s.status = .running → ∃ t, step s = .next t ∧
    ((fieldsAt s).mem.getLsbD 0 = true → inBounds t = true → t.mbr = s.mem.read t.pc.toNat) ∧
    ((fieldsAt s).mem.getLsbD 0 = false → t.mbr = s.mbr) ∧
    t.mpc = nextAddress (fieldsAt s) t.n t.z t.mbr ∧ (t.status = .haltedNormal ↔ t.mbr = 0xFF#8) ∧
    t.cl = shiftValue (fieldsAt s).shift (aluValue (fieldsAt s).aluOp (busValue (fieldsAt s).bSel s) s) ∧
    exec .bMbr t = .next { t with busB := t.mbr.signExtend 32 } ∧
    exec .bMbru t = .next { t with busB := t.mbr.setWidth 32 }

/-- Frame of the NEXT and JUMP rows: only MPC. -/
def Obligations.NextAddressRowsLeaveTheRestUnchanged : Prop :=
  ∀ (i : Instr) (s : State), 15 ≤ i.rank → ∃ t, exec i s = .next t ∧ SameWords s t ∧ t.mbr = s.mbr ∧ SameControl s t ∧
    SameFlags s t ∧ t.cl = s.cl ∧ SameMemory s t ∧ t.trace = s.trace ∧ SameTransients s t

/-! ### Termination and events (46_cycle_engine.md, 60_exceptions.md) -/

/-- R132: the three outcomes of the termination check, in its order, exclusive where no sentinel was latched before. -/
def Obligations.TerminationCheckDecidesTheStatus : Prop :=
  ∀ s : State, s.status = .running → ∃ t, step s = .next t ∧
    (t.mbr = 0xFF#8 → t.status = .haltedNormal ∧ t.trace.getLast? = some (.haltSentinel t.pc s.mpc)) ∧
    (t.mbr ≠ 0xFF#8 → inBounds t = false → t.status = .haltedFault ∧
      Event.bounds (pcOk t) (marOk t) t.pc t.mar s.mpc ∈ t.trace) ∧
    (t.mbr ≠ 0xFF#8 → inBounds t = true → t.status = .running) ∧
    (s.mbr ≠ 0xFF#8 → t.mbr = 0xFF#8 → inBounds t = true)

/-- R144: a normal halt happens in exactly the cycle that fetches 0xFF, and it records PC and the slot. -/
def Obligations.NormalHaltIsAFetchedSentinel : Prop :=
  ∀ s : State, s.status = .running → s.mbr ≠ 0xFF#8 → ∃ t, step s = .next t ∧
    (t.status = .haltedNormal ↔
      (fieldsAt s).mem.getLsbD 0 = true ∧ inBounds t = true ∧ s.mem.read t.pc.toNat = 0xFF#8) ∧
    (t.status = .haltedNormal → t.trace.getLast? = some (.haltSentinel t.pc s.mpc))

/-- R146: a cycle's events in step order, the warnings first, then BOUNDS, then HALT_SENTINEL; the last two never together
where no sentinel was latched before. -/
def Obligations.EventsAppearInStepOrder : Prop :=
  ∀ s : State, s.status = .running → ∃ t, step s = .next t ∧
    t.trace = s.trace ++
      (if 9 ≤ (fieldsAt s).bSel.toNat then [.badBsel (fieldsAt s).bSel s.mpc] else []) ++
      (if (fieldsAt s).aluOp.toNat ∈ validAluCodes then [] else [.badAlu (fieldsAt s).aluOp s.mpc]) ++
      (if (fieldsAt s).shift = 3#2 then [.badShift (fieldsAt s).shift s.mpc] else []) ++
      (if inBounds t then [] else [.bounds (pcOk t) (marOk t) t.pc t.mar s.mpc]) ++
      (if t.mbr = 0xFF#8 then [.haltSentinel t.pc s.mpc] else []) ∧
    (s.mbr ≠ 0xFF#8 → ¬(inBounds t = false ∧ t.mbr = 0xFF#8))

/-- R137: the codes of the events and of the load errors. -/
def Obligations.EventAndErrorCodes : Prop :=
  (∀ c m, eventCode (.badBsel c m) = 1) ∧ (∀ c m, eventCode (.badAlu c m) = 2) ∧ (∀ c m, eventCode (.badShift c m) = 3) ∧
  (∀ p q pc mar m, eventCode (.bounds p q pc mar m) = 16) ∧ (∀ pc m, eventCode (.haltSentinel pc m) = 32) ∧
  loadErrorCode .missingArg = 48 ∧ loadErrorCode .csIo = 49 ∧ (∀ n, loadErrorCode (.csFormat n) = 50) ∧
  loadErrorCode .progIo = 51 ∧ (∀ r e, loadErrorCode (.progShort r e) = 52) ∧
  (∀ n, loadErrorCode (.progTooLarge n) = 53) ∧ (∀ n, loadErrorCode (.progSizeSmall n) = 54) ∧
  ∀ n, loadErrorCode (.progBodyOverflow n) = 55

/-- The all-zero word: every slot the image does not fill holds it, and its cycle gives one BAD_ALU warning, flags
from CL, no register written, no access, the bounds check still run, MPC back to 0 (30_encoding.md R65). That the three
fields that live inside a cycle are left 0, 0 and false is the model's choice (log entry 1). -/
def Obligations.UnfilledSlotRestartsTheMicroprogram : Prop :=
  (∀ (image : List Byte) (cs : Vector MicroWord 512) (i : Slot), loadControlStore image = .ok cs →
    image.length ≤ 8 * i.toNat → controlWord cs i = 0#36) ∧
  decode 0#36 = [.bMdr, .aluInvalid0, .shiftNone, .mpcNext 0#9] ∧
  ∀ s : State, s.status = .running → s.mbr ≠ 0xFF#8 → controlWord s.cs s.mpc = 0#36 →
    step s = .next { s with
      mir := 0#36, mpc := 0#9, z := s.cl == 0#32, n := s.cl != 0#32
      status := if inBounds s then .running else .haltedFault
      trace := s.trace ++ .badAlu 0#6 s.mpc :: (if inBounds s then [] else [.bounds (pcOk s) (marOk s) s.pc s.mar s.mpc])
      busB := 0#32, aluR := 0#32, faultPending := false }

/-! ### What a cycle changes and what it may depend on -/

/-- Frame of a cycle: each register changes only where the fields of the microinstruction say so, and every byte of memory
outside the word written reads as before. -/
def Obligations.CycleWritesOnlyWhatItsFieldsName : Prop :=
  ∀ s : State, s.status = .running → s.mem.wf = true → ∃ t, step s = .next t ∧
    ((fieldsAt s).cMask.getLsbD 0 = false → t.mar = s.mar) ∧
    ((fieldsAt s).cMask.getLsbD 1 = false → (fieldsAt s).mem.getLsbD 1 = false → t.mdr = s.mdr) ∧
    ((fieldsAt s).cMask.getLsbD 2 = false → t.pc = s.pc) ∧ ((fieldsAt s).cMask.getLsbD 3 = false → t.sp = s.sp) ∧
    ((fieldsAt s).cMask.getLsbD 4 = false → t.lv = s.lv) ∧ ((fieldsAt s).cMask.getLsbD 5 = false → t.cpp = s.cpp) ∧
    ((fieldsAt s).cMask.getLsbD 6 = false → t.tos = s.tos) ∧ ((fieldsAt s).cMask.getLsbD 7 = false → t.opc = s.opc) ∧
    ((fieldsAt s).cMask.getLsbD 8 = false → t.h = s.h) ∧
    ((fieldsAt s).mem.getLsbD 0 = false → t.mbr = s.mbr) ∧
    ((fieldsAt s).mem.getLsbD 2 = false → t.mem = s.mem) ∧
    (∀ a, ¬(4 * t.mar.toNat ≤ a ∧ a < 4 * t.mar.toNat + 4) → t.mem.read a = s.mem.read a) ∧
    t.mir = controlWord s.cs s.mpc ∧ ∃ events, t.trace = s.trace ++ events

/-- R27, R28: no cycle changes the control store or the capacity of main memory. -/
def Obligations.ControlStoreAndCapacityNeverChange : Prop :=
  ∀ s : State, s.status = .running → ∃ t, step s = .next t ∧ t.cs = s.cs ∧ t.cap = s.cap

/-- R17: MAR is read by the memory unit alone: in a cycle that requests neither rd nor wr and raises no bounds fault, two
values of MAR that pass the bounds check lead to states that differ in MAR only. -/
def Obligations.MarReachesOnlyTheMemoryUnit : Prop :=
  ∀ (s : State) (m : Word), s.status = .running → (fieldsAt s).mem.getLsbD 1 = false →
    (fieldsAt s).mem.getLsbD 2 = false → 4 * s.mar.toNat < s.cap → 4 * m.toNat < s.cap →
    ∃ t, step s = .next t ∧ (t.pc.toNat < s.cap →
      step { s with mar := m } = .next { t with mar := if (fieldsAt s).cMask.getLsbD 0 then t.mar else m })

/-- The trace is output only (10_state.md R14): from the same state with another trace, the same cycle happens and appends
the same events. -/
def Obligations.TraceIsNeverRead : Prop :=
  ∀ (s : State) (other : List Event), s.status = .running → ∃ t events, step s = .next t ∧
    t.trace = s.trace ++ events ∧ step { s with trace := other } = .next { t with trace := other ++ events }

/-- R31, R32: no cycle sees an earlier cycle's B bus, ALU result or fault-pending signal, and none is left after it. -/
def Obligations.TransientsDoNotOutliveTheirCycle : Prop :=
  ∀ (s : State) (b r : Word) (p : Bool),
    step { s with busB := b, aluR := r, faultPending := p } = step s ∧ ∀ t, step s = .next t → AtRest t

/-! ### The invariant -/

/-- Headline: every cycle keeps the invariant: a legal capacity, canonical memory below it, nothing kept inside the cycle,
a status that agrees with MBR and the bounds. -/
def Obligations.EveryStepKeepsTheInvariant : Prop :=
  ∀ s t : State, Inv s → step s = .next t → Inv t

/-- The reset state meets the invariant (10_state.md R29; the capacity is the reference value, log entry 2; the canonical
form and the resting values are the model's, log entries 4 and 1). -/
def Obligations.ResetMeetsTheInvariant : Prop := Inv State.reset

/-- Every launch with legal parameters starts in the invariant, whose canonical form and resting values are the model's
(log entries 4 and 1). -/
def Obligations.EveryLaunchMeetsTheInvariant : Prop :=
  ∀ (p : Config.Params) (cs : Image) (prog : Option Image) (s : State), p.Ok → launch p cs prog = .ok s → Inv s

/-! ### Reset and launch (10_state.md, 70_reset_and_hazards.md) -/

/-- R29: after every successful launch: registers, MBR, MIR, MPC, flags and CL 0, RUNNING, trace empty, CS and M from the
two images and 0 elsewhere. -/
def Obligations.LaunchLeavesTheResetState : Prop :=
  ∀ (p : Config.Params) (cs : Image) (prog : Option Image) (s : State), p.Ok → launch p cs prog = .ok s →
    s.mar = 0#32 ∧ s.mdr = 0#32 ∧ s.pc = 0#32 ∧ s.sp = 0#32 ∧ s.lv = 0#32 ∧ s.cpp = 0#32 ∧ s.tos = 0#32 ∧
    s.opc = 0#32 ∧ s.h = 0#32 ∧ s.mbr = 0#8 ∧ s.mir = 0#36 ∧ s.mpc = 0#9 ∧ s.n = false ∧ s.z = false ∧ s.cl = 0#32 ∧
    s.status = .running ∧ s.trace = [] ∧ s.cap = p.cap ∧
    ∃ csBytes progBytes, cs = .bytes csBytes ∧ prog = some (.bytes progBytes) ∧
      (∀ i : Slot, controlWord s.cs i = imageSlot csBytes i.toNat) ∧ ∀ a, s.mem.read a = imageMemory p progBytes a

/-- The model's reset state is the launch with an empty control-store image and a program image of 20 zero bytes (log
entry 3), with the reference capacity (log entry 2). -/
def Obligations.ResetIsTheEmptyLaunch : Prop :=
  launch Config.reference (.bytes []) (some (.bytes ([20#8, 0#8, 0#8, 0#8] ++ List.replicate 20 0#8))) =
    .ok State.reset

/-- R154, R155: an image of at most 512 whole records fills the slots in order and leaves the rest 0; any other image is
LOAD_CS_FORMAT. -/
def Obligations.ControlStoreImageFillsTheSlots : Prop :=
  (∀ image : List Byte, image.length % 8 = 0 → image.length / 8 ≤ 512 → ∃ cs, loadControlStore image = .ok cs ∧
    ∀ i : Slot, controlWord cs i = imageSlot image i.toNat) ∧
  (∀ image : List Byte, image.length % 8 ≠ 0 ∨ 512 < image.length / 8 →
    loadControlStore image = .error (.csFormat image.length)) ∧
  ∀ (p : Config.Params) (prog : Image), launch p .unreadable (some prog) = .error .csIo

/-- A program image that passes the checks puts its initialization block at 0 to 19, its body at ORIGIN, and 0
everywhere else (70_reset_and_hazards.md R156). That the memory is a list in canonical form is the model's own
(log entry 4). -/
def Obligations.ProgramImageFillsMemory : Prop :=
  ∀ (p : Config.Params) (image : List Byte) (m : Memory), p.Ok → loadProgram p image = .ok m →
    m.wf = true ∧ (∀ a, m.read a = imageMemory p image a) ∧ ∀ c ∈ m, c.1 < p.cap

/-- R157: the checks of a program image, in order, the first that fails being the one reported. -/
def Obligations.ProgramImageChecksInOrder : Prop :=
  ∀ (p : Config.Params) (image : List Byte),
    (image.length < 4 → loadProgram p image = .error (.progShort image.length 4)) ∧
    (4 ≤ image.length →
      (p.cap < imageSize image → loadProgram p image = .error (.progTooLarge (imageSize image))) ∧
      (imageSize image ≤ p.cap →
        (imageSize image < 20 → loadProgram p image = .error (.progSizeSmall (imageSize image))) ∧
        (20 ≤ imageSize image →
          (p.cap < p.origin + imageSize image - 20 →
            loadProgram p image = .error (.progBodyOverflow (imageSize image))) ∧
          (p.origin + imageSize image - 20 ≤ p.cap →
            (image.length < 24 → loadProgram p image = .error (.progShort (image.length - 4) 20)) ∧
            (24 ≤ image.length →
              (image.length < 4 + imageSize image →
                loadProgram p image = .error (.progShort (image.length - 24) (imageSize image - 20))) ∧
              (4 + imageSize image ≤ image.length → ∃ m, loadProgram p image = .ok m)))))) ∧
    (∀ csBytes cs, loadControlStore csBytes = .ok cs → launch p (.bytes csBytes) (some .unreadable) = .error .progIo) ∧
    ∀ cs, launch p cs none = .error .missingArg

/-- R159: the first failing check ends the launch: a missing argument, then the control-store image, then the program
image. -/
def Obligations.FirstLoadErrorEndsTheLaunch : Prop :=
  ∀ p : Config.Params,
    (∀ cs, launch p cs none = .error .missingArg) ∧
    (∀ prog, launch p .unreadable (some prog) = .error .csIo) ∧
    (∀ csBytes e prog, loadControlStore csBytes = .error e → launch p (.bytes csBytes) (some prog) = .error e) ∧
    (∀ csBytes cs, loadControlStore csBytes = .ok cs → launch p (.bytes csBytes) (some .unreadable) = .error .progIo) ∧
    (∀ csBytes cs progBytes e, loadControlStore csBytes = .ok cs → loadProgram p progBytes = .error e →
      launch p (.bytes csBytes) (some (.bytes progBytes)) = .error e) ∧
    ∀ csBytes cs progBytes m, loadControlStore csBytes = .ok cs → loadProgram p progBytes = .ok m →
      ∃ s, launch p (.bytes csBytes) (some (.bytes progBytes)) = .ok s ∧ s.status = .running
end

