-- ==== Sys2Proof/Laws/State.lean ====
section
/-! SUPPORT. One lemma per field per update of the state, so that no later proof unfolds an update; then, for the updates
that decide something (raising the fault, the bounds check, a memory access, the termination check), what they leave
unchanged and what they do in each case. -/

namespace Sys2Proof.Machine

/-! ### record -/

@[simp] theorem record_mar (e : Event) (s : State) : (record e s).mar = s.mar := rfl
@[simp] theorem record_mdr (e : Event) (s : State) : (record e s).mdr = s.mdr := rfl
@[simp] theorem record_pc (e : Event) (s : State) : (record e s).pc = s.pc := rfl
@[simp] theorem record_sp (e : Event) (s : State) : (record e s).sp = s.sp := rfl
@[simp] theorem record_lv (e : Event) (s : State) : (record e s).lv = s.lv := rfl
@[simp] theorem record_cpp (e : Event) (s : State) : (record e s).cpp = s.cpp := rfl
@[simp] theorem record_tos (e : Event) (s : State) : (record e s).tos = s.tos := rfl
@[simp] theorem record_opc (e : Event) (s : State) : (record e s).opc = s.opc := rfl
@[simp] theorem record_h (e : Event) (s : State) : (record e s).h = s.h := rfl
@[simp] theorem record_mbr (e : Event) (s : State) : (record e s).mbr = s.mbr := rfl
@[simp] theorem record_mir (e : Event) (s : State) : (record e s).mir = s.mir := rfl
@[simp] theorem record_mpc (e : Event) (s : State) : (record e s).mpc = s.mpc := rfl
@[simp] theorem record_n (e : Event) (s : State) : (record e s).n = s.n := rfl
@[simp] theorem record_z (e : Event) (s : State) : (record e s).z = s.z := rfl
@[simp] theorem record_cl (e : Event) (s : State) : (record e s).cl = s.cl := rfl
@[simp] theorem record_status (e : Event) (s : State) : (record e s).status = s.status := rfl
@[simp] theorem record_cs (e : Event) (s : State) : (record e s).cs = s.cs := rfl
@[simp] theorem record_mem (e : Event) (s : State) : (record e s).mem = s.mem := rfl
@[simp] theorem record_cap (e : Event) (s : State) : (record e s).cap = s.cap := rfl
@[simp] theorem record_trace (e : Event) (s : State) : (record e s).trace = s.trace ++ [e] := rfl
@[simp] theorem record_busB (e : Event) (s : State) : (record e s).busB = s.busB := rfl
@[simp] theorem record_aluR (e : Event) (s : State) : (record e s).aluR = s.aluR := rfl
@[simp] theorem record_faultPending (e : Event) (s : State) : (record e s).faultPending = s.faultPending := rfl

/-! ### setFlags -/

@[simp] theorem setFlags_mar (r : Word) (s : State) : (setFlags r s).mar = s.mar := rfl
@[simp] theorem setFlags_mdr (r : Word) (s : State) : (setFlags r s).mdr = s.mdr := rfl
@[simp] theorem setFlags_pc (r : Word) (s : State) : (setFlags r s).pc = s.pc := rfl
@[simp] theorem setFlags_sp (r : Word) (s : State) : (setFlags r s).sp = s.sp := rfl
@[simp] theorem setFlags_lv (r : Word) (s : State) : (setFlags r s).lv = s.lv := rfl
@[simp] theorem setFlags_cpp (r : Word) (s : State) : (setFlags r s).cpp = s.cpp := rfl
@[simp] theorem setFlags_tos (r : Word) (s : State) : (setFlags r s).tos = s.tos := rfl
@[simp] theorem setFlags_opc (r : Word) (s : State) : (setFlags r s).opc = s.opc := rfl
@[simp] theorem setFlags_h (r : Word) (s : State) : (setFlags r s).h = s.h := rfl
@[simp] theorem setFlags_mbr (r : Word) (s : State) : (setFlags r s).mbr = s.mbr := rfl
@[simp] theorem setFlags_mir (r : Word) (s : State) : (setFlags r s).mir = s.mir := rfl
@[simp] theorem setFlags_mpc (r : Word) (s : State) : (setFlags r s).mpc = s.mpc := rfl
@[simp] theorem setFlags_n (r : Word) (s : State) : (setFlags r s).n = (r != 0#32) := rfl
@[simp] theorem setFlags_z (r : Word) (s : State) : (setFlags r s).z = (r == 0#32) := rfl
@[simp] theorem setFlags_cl (r : Word) (s : State) : (setFlags r s).cl = s.cl := rfl
@[simp] theorem setFlags_status (r : Word) (s : State) : (setFlags r s).status = s.status := rfl
@[simp] theorem setFlags_cs (r : Word) (s : State) : (setFlags r s).cs = s.cs := rfl
@[simp] theorem setFlags_mem (r : Word) (s : State) : (setFlags r s).mem = s.mem := rfl
@[simp] theorem setFlags_cap (r : Word) (s : State) : (setFlags r s).cap = s.cap := rfl
@[simp] theorem setFlags_trace (r : Word) (s : State) : (setFlags r s).trace = s.trace := rfl
@[simp] theorem setFlags_busB (r : Word) (s : State) : (setFlags r s).busB = s.busB := rfl
@[simp] theorem setFlags_aluR (r : Word) (s : State) : (setFlags r s).aluR = s.aluR := rfl
@[simp] theorem setFlags_faultPending (r : Word) (s : State) : (setFlags r s).faultPending = s.faultPending := rfl

/-! ### driveB -/

@[simp] theorem driveB_mar (v : Word) (s : State) : (driveB v s).mar = s.mar := rfl
@[simp] theorem driveB_mdr (v : Word) (s : State) : (driveB v s).mdr = s.mdr := rfl
@[simp] theorem driveB_pc (v : Word) (s : State) : (driveB v s).pc = s.pc := rfl
@[simp] theorem driveB_sp (v : Word) (s : State) : (driveB v s).sp = s.sp := rfl
@[simp] theorem driveB_lv (v : Word) (s : State) : (driveB v s).lv = s.lv := rfl
@[simp] theorem driveB_cpp (v : Word) (s : State) : (driveB v s).cpp = s.cpp := rfl
@[simp] theorem driveB_tos (v : Word) (s : State) : (driveB v s).tos = s.tos := rfl
@[simp] theorem driveB_opc (v : Word) (s : State) : (driveB v s).opc = s.opc := rfl
@[simp] theorem driveB_h (v : Word) (s : State) : (driveB v s).h = s.h := rfl
@[simp] theorem driveB_mbr (v : Word) (s : State) : (driveB v s).mbr = s.mbr := rfl
@[simp] theorem driveB_mir (v : Word) (s : State) : (driveB v s).mir = s.mir := rfl
@[simp] theorem driveB_mpc (v : Word) (s : State) : (driveB v s).mpc = s.mpc := rfl
@[simp] theorem driveB_n (v : Word) (s : State) : (driveB v s).n = s.n := rfl
@[simp] theorem driveB_z (v : Word) (s : State) : (driveB v s).z = s.z := rfl
@[simp] theorem driveB_cl (v : Word) (s : State) : (driveB v s).cl = s.cl := rfl
@[simp] theorem driveB_status (v : Word) (s : State) : (driveB v s).status = s.status := rfl
@[simp] theorem driveB_cs (v : Word) (s : State) : (driveB v s).cs = s.cs := rfl
@[simp] theorem driveB_mem (v : Word) (s : State) : (driveB v s).mem = s.mem := rfl
@[simp] theorem driveB_cap (v : Word) (s : State) : (driveB v s).cap = s.cap := rfl
@[simp] theorem driveB_trace (v : Word) (s : State) : (driveB v s).trace = s.trace := rfl
@[simp] theorem driveB_busB (v : Word) (s : State) : (driveB v s).busB = v := rfl
@[simp] theorem driveB_aluR (v : Word) (s : State) : (driveB v s).aluR = s.aluR := rfl
@[simp] theorem driveB_faultPending (v : Word) (s : State) : (driveB v s).faultPending = s.faultPending := rfl

/-! ### driveInvalidB -/

@[simp] theorem driveInvalidB_mar (c : BitVec 4) (s : State) : (driveInvalidB c s).mar = s.mar := rfl
@[simp] theorem driveInvalidB_mdr (c : BitVec 4) (s : State) : (driveInvalidB c s).mdr = s.mdr := rfl
@[simp] theorem driveInvalidB_pc (c : BitVec 4) (s : State) : (driveInvalidB c s).pc = s.pc := rfl
@[simp] theorem driveInvalidB_sp (c : BitVec 4) (s : State) : (driveInvalidB c s).sp = s.sp := rfl
@[simp] theorem driveInvalidB_lv (c : BitVec 4) (s : State) : (driveInvalidB c s).lv = s.lv := rfl
@[simp] theorem driveInvalidB_cpp (c : BitVec 4) (s : State) : (driveInvalidB c s).cpp = s.cpp := rfl
@[simp] theorem driveInvalidB_tos (c : BitVec 4) (s : State) : (driveInvalidB c s).tos = s.tos := rfl
@[simp] theorem driveInvalidB_opc (c : BitVec 4) (s : State) : (driveInvalidB c s).opc = s.opc := rfl
@[simp] theorem driveInvalidB_h (c : BitVec 4) (s : State) : (driveInvalidB c s).h = s.h := rfl
@[simp] theorem driveInvalidB_mbr (c : BitVec 4) (s : State) : (driveInvalidB c s).mbr = s.mbr := rfl
@[simp] theorem driveInvalidB_mir (c : BitVec 4) (s : State) : (driveInvalidB c s).mir = s.mir := rfl
@[simp] theorem driveInvalidB_mpc (c : BitVec 4) (s : State) : (driveInvalidB c s).mpc = s.mpc := rfl
@[simp] theorem driveInvalidB_n (c : BitVec 4) (s : State) : (driveInvalidB c s).n = s.n := rfl
@[simp] theorem driveInvalidB_z (c : BitVec 4) (s : State) : (driveInvalidB c s).z = s.z := rfl
@[simp] theorem driveInvalidB_cl (c : BitVec 4) (s : State) : (driveInvalidB c s).cl = s.cl := rfl
@[simp] theorem driveInvalidB_status (c : BitVec 4) (s : State) : (driveInvalidB c s).status = s.status := rfl
@[simp] theorem driveInvalidB_cs (c : BitVec 4) (s : State) : (driveInvalidB c s).cs = s.cs := rfl
@[simp] theorem driveInvalidB_mem (c : BitVec 4) (s : State) : (driveInvalidB c s).mem = s.mem := rfl
@[simp] theorem driveInvalidB_cap (c : BitVec 4) (s : State) : (driveInvalidB c s).cap = s.cap := rfl
@[simp] theorem driveInvalidB_trace (c : BitVec 4) (s : State) : (driveInvalidB c s).trace = s.trace ++ [.badBsel c s.mpc] := rfl
@[simp] theorem driveInvalidB_busB (c : BitVec 4) (s : State) : (driveInvalidB c s).busB = allOnes := rfl
@[simp] theorem driveInvalidB_aluR (c : BitVec 4) (s : State) : (driveInvalidB c s).aluR = s.aluR := rfl
@[simp] theorem driveInvalidB_faultPending (c : BitVec 4) (s : State) : (driveInvalidB c s).faultPending = s.faultPending := rfl

/-! ### aluResult -/

@[simp] theorem aluResult_mar (r : Word) (s : State) : (aluResult r s).mar = s.mar := rfl
@[simp] theorem aluResult_mdr (r : Word) (s : State) : (aluResult r s).mdr = s.mdr := rfl
@[simp] theorem aluResult_pc (r : Word) (s : State) : (aluResult r s).pc = s.pc := rfl
@[simp] theorem aluResult_sp (r : Word) (s : State) : (aluResult r s).sp = s.sp := rfl
@[simp] theorem aluResult_lv (r : Word) (s : State) : (aluResult r s).lv = s.lv := rfl
@[simp] theorem aluResult_cpp (r : Word) (s : State) : (aluResult r s).cpp = s.cpp := rfl
@[simp] theorem aluResult_tos (r : Word) (s : State) : (aluResult r s).tos = s.tos := rfl
@[simp] theorem aluResult_opc (r : Word) (s : State) : (aluResult r s).opc = s.opc := rfl
@[simp] theorem aluResult_h (r : Word) (s : State) : (aluResult r s).h = s.h := rfl
@[simp] theorem aluResult_mbr (r : Word) (s : State) : (aluResult r s).mbr = s.mbr := rfl
@[simp] theorem aluResult_mir (r : Word) (s : State) : (aluResult r s).mir = s.mir := rfl
@[simp] theorem aluResult_mpc (r : Word) (s : State) : (aluResult r s).mpc = s.mpc := rfl
@[simp] theorem aluResult_n (r : Word) (s : State) : (aluResult r s).n = (r != 0#32) := rfl
@[simp] theorem aluResult_z (r : Word) (s : State) : (aluResult r s).z = (r == 0#32) := rfl
@[simp] theorem aluResult_cl (r : Word) (s : State) : (aluResult r s).cl = s.cl := rfl
@[simp] theorem aluResult_status (r : Word) (s : State) : (aluResult r s).status = s.status := rfl
@[simp] theorem aluResult_cs (r : Word) (s : State) : (aluResult r s).cs = s.cs := rfl
@[simp] theorem aluResult_mem (r : Word) (s : State) : (aluResult r s).mem = s.mem := rfl
@[simp] theorem aluResult_cap (r : Word) (s : State) : (aluResult r s).cap = s.cap := rfl
@[simp] theorem aluResult_trace (r : Word) (s : State) : (aluResult r s).trace = s.trace := rfl
@[simp] theorem aluResult_busB (r : Word) (s : State) : (aluResult r s).busB = s.busB := rfl
@[simp] theorem aluResult_aluR (r : Word) (s : State) : (aluResult r s).aluR = r := rfl
@[simp] theorem aluResult_faultPending (r : Word) (s : State) : (aluResult r s).faultPending = s.faultPending := rfl

/-! ### aluInvalid -/

@[simp] theorem aluInvalid_mar (c : BitVec 6) (s : State) : (aluInvalid c s).mar = s.mar := rfl
@[simp] theorem aluInvalid_mdr (c : BitVec 6) (s : State) : (aluInvalid c s).mdr = s.mdr := rfl
@[simp] theorem aluInvalid_pc (c : BitVec 6) (s : State) : (aluInvalid c s).pc = s.pc := rfl
@[simp] theorem aluInvalid_sp (c : BitVec 6) (s : State) : (aluInvalid c s).sp = s.sp := rfl
@[simp] theorem aluInvalid_lv (c : BitVec 6) (s : State) : (aluInvalid c s).lv = s.lv := rfl
@[simp] theorem aluInvalid_cpp (c : BitVec 6) (s : State) : (aluInvalid c s).cpp = s.cpp := rfl
@[simp] theorem aluInvalid_tos (c : BitVec 6) (s : State) : (aluInvalid c s).tos = s.tos := rfl
@[simp] theorem aluInvalid_opc (c : BitVec 6) (s : State) : (aluInvalid c s).opc = s.opc := rfl
@[simp] theorem aluInvalid_h (c : BitVec 6) (s : State) : (aluInvalid c s).h = s.h := rfl
@[simp] theorem aluInvalid_mbr (c : BitVec 6) (s : State) : (aluInvalid c s).mbr = s.mbr := rfl
@[simp] theorem aluInvalid_mir (c : BitVec 6) (s : State) : (aluInvalid c s).mir = s.mir := rfl
@[simp] theorem aluInvalid_mpc (c : BitVec 6) (s : State) : (aluInvalid c s).mpc = s.mpc := rfl
@[simp] theorem aluInvalid_n (c : BitVec 6) (s : State) : (aluInvalid c s).n = (s.cl != 0#32) := rfl
@[simp] theorem aluInvalid_z (c : BitVec 6) (s : State) : (aluInvalid c s).z = (s.cl == 0#32) := rfl
@[simp] theorem aluInvalid_cl (c : BitVec 6) (s : State) : (aluInvalid c s).cl = s.cl := rfl
@[simp] theorem aluInvalid_status (c : BitVec 6) (s : State) : (aluInvalid c s).status = s.status := rfl
@[simp] theorem aluInvalid_cs (c : BitVec 6) (s : State) : (aluInvalid c s).cs = s.cs := rfl
@[simp] theorem aluInvalid_mem (c : BitVec 6) (s : State) : (aluInvalid c s).mem = s.mem := rfl
@[simp] theorem aluInvalid_cap (c : BitVec 6) (s : State) : (aluInvalid c s).cap = s.cap := rfl
@[simp] theorem aluInvalid_trace (c : BitVec 6) (s : State) : (aluInvalid c s).trace = s.trace ++ [.badAlu c s.mpc] := rfl
@[simp] theorem aluInvalid_busB (c : BitVec 6) (s : State) : (aluInvalid c s).busB = s.busB := rfl
@[simp] theorem aluInvalid_aluR (c : BitVec 6) (s : State) : (aluInvalid c s).aluR = s.cl := rfl
@[simp] theorem aluInvalid_faultPending (c : BitVec 6) (s : State) : (aluInvalid c s).faultPending = s.faultPending := rfl

/-! ### shiftOut -/

@[simp] theorem shiftOut_mar (c : Word) (s : State) : (shiftOut c s).mar = s.mar := rfl
@[simp] theorem shiftOut_mdr (c : Word) (s : State) : (shiftOut c s).mdr = s.mdr := rfl
@[simp] theorem shiftOut_pc (c : Word) (s : State) : (shiftOut c s).pc = s.pc := rfl
@[simp] theorem shiftOut_sp (c : Word) (s : State) : (shiftOut c s).sp = s.sp := rfl
@[simp] theorem shiftOut_lv (c : Word) (s : State) : (shiftOut c s).lv = s.lv := rfl
@[simp] theorem shiftOut_cpp (c : Word) (s : State) : (shiftOut c s).cpp = s.cpp := rfl
@[simp] theorem shiftOut_tos (c : Word) (s : State) : (shiftOut c s).tos = s.tos := rfl
@[simp] theorem shiftOut_opc (c : Word) (s : State) : (shiftOut c s).opc = s.opc := rfl
@[simp] theorem shiftOut_h (c : Word) (s : State) : (shiftOut c s).h = s.h := rfl
@[simp] theorem shiftOut_mbr (c : Word) (s : State) : (shiftOut c s).mbr = s.mbr := rfl
@[simp] theorem shiftOut_mir (c : Word) (s : State) : (shiftOut c s).mir = s.mir := rfl
@[simp] theorem shiftOut_mpc (c : Word) (s : State) : (shiftOut c s).mpc = s.mpc := rfl
@[simp] theorem shiftOut_n (c : Word) (s : State) : (shiftOut c s).n = s.n := rfl
@[simp] theorem shiftOut_z (c : Word) (s : State) : (shiftOut c s).z = s.z := rfl
@[simp] theorem shiftOut_cl (c : Word) (s : State) : (shiftOut c s).cl = c := rfl
@[simp] theorem shiftOut_status (c : Word) (s : State) : (shiftOut c s).status = s.status := rfl
@[simp] theorem shiftOut_cs (c : Word) (s : State) : (shiftOut c s).cs = s.cs := rfl
@[simp] theorem shiftOut_mem (c : Word) (s : State) : (shiftOut c s).mem = s.mem := rfl
@[simp] theorem shiftOut_cap (c : Word) (s : State) : (shiftOut c s).cap = s.cap := rfl
@[simp] theorem shiftOut_trace (c : Word) (s : State) : (shiftOut c s).trace = s.trace := rfl
@[simp] theorem shiftOut_busB (c : Word) (s : State) : (shiftOut c s).busB = s.busB := rfl
@[simp] theorem shiftOut_aluR (c : Word) (s : State) : (shiftOut c s).aluR = s.aluR := rfl
@[simp] theorem shiftOut_faultPending (c : Word) (s : State) : (shiftOut c s).faultPending = s.faultPending := rfl

/-! ### shiftInvalid -/

@[simp] theorem shiftInvalid_mar (k : BitVec 2) (s : State) : (shiftInvalid k s).mar = s.mar := rfl
@[simp] theorem shiftInvalid_mdr (k : BitVec 2) (s : State) : (shiftInvalid k s).mdr = s.mdr := rfl
@[simp] theorem shiftInvalid_pc (k : BitVec 2) (s : State) : (shiftInvalid k s).pc = s.pc := rfl
@[simp] theorem shiftInvalid_sp (k : BitVec 2) (s : State) : (shiftInvalid k s).sp = s.sp := rfl
@[simp] theorem shiftInvalid_lv (k : BitVec 2) (s : State) : (shiftInvalid k s).lv = s.lv := rfl
@[simp] theorem shiftInvalid_cpp (k : BitVec 2) (s : State) : (shiftInvalid k s).cpp = s.cpp := rfl
@[simp] theorem shiftInvalid_tos (k : BitVec 2) (s : State) : (shiftInvalid k s).tos = s.tos := rfl
@[simp] theorem shiftInvalid_opc (k : BitVec 2) (s : State) : (shiftInvalid k s).opc = s.opc := rfl
@[simp] theorem shiftInvalid_h (k : BitVec 2) (s : State) : (shiftInvalid k s).h = s.h := rfl
@[simp] theorem shiftInvalid_mbr (k : BitVec 2) (s : State) : (shiftInvalid k s).mbr = s.mbr := rfl
@[simp] theorem shiftInvalid_mir (k : BitVec 2) (s : State) : (shiftInvalid k s).mir = s.mir := rfl
@[simp] theorem shiftInvalid_mpc (k : BitVec 2) (s : State) : (shiftInvalid k s).mpc = s.mpc := rfl
@[simp] theorem shiftInvalid_n (k : BitVec 2) (s : State) : (shiftInvalid k s).n = s.n := rfl
@[simp] theorem shiftInvalid_z (k : BitVec 2) (s : State) : (shiftInvalid k s).z = s.z := rfl
@[simp] theorem shiftInvalid_cl (k : BitVec 2) (s : State) : (shiftInvalid k s).cl = s.aluR := rfl
@[simp] theorem shiftInvalid_status (k : BitVec 2) (s : State) : (shiftInvalid k s).status = s.status := rfl
@[simp] theorem shiftInvalid_cs (k : BitVec 2) (s : State) : (shiftInvalid k s).cs = s.cs := rfl
@[simp] theorem shiftInvalid_mem (k : BitVec 2) (s : State) : (shiftInvalid k s).mem = s.mem := rfl
@[simp] theorem shiftInvalid_cap (k : BitVec 2) (s : State) : (shiftInvalid k s).cap = s.cap := rfl
@[simp] theorem shiftInvalid_trace (k : BitVec 2) (s : State) : (shiftInvalid k s).trace = s.trace ++ [.badShift k s.mpc] := rfl
@[simp] theorem shiftInvalid_busB (k : BitVec 2) (s : State) : (shiftInvalid k s).busB = s.busB := rfl
@[simp] theorem shiftInvalid_aluR (k : BitVec 2) (s : State) : (shiftInvalid k s).aluR = s.aluR := rfl
@[simp] theorem shiftInvalid_faultPending (k : BitVec 2) (s : State) : (shiftInvalid k s).faultPending = s.faultPending := rfl

/-! ### fetchByte -/

@[simp] theorem fetchByte_mar (s : State) : (fetchByte s).mar = s.mar := rfl
@[simp] theorem fetchByte_mdr (s : State) : (fetchByte s).mdr = s.mdr := rfl
@[simp] theorem fetchByte_pc (s : State) : (fetchByte s).pc = s.pc := rfl
@[simp] theorem fetchByte_sp (s : State) : (fetchByte s).sp = s.sp := rfl
@[simp] theorem fetchByte_lv (s : State) : (fetchByte s).lv = s.lv := rfl
@[simp] theorem fetchByte_cpp (s : State) : (fetchByte s).cpp = s.cpp := rfl
@[simp] theorem fetchByte_tos (s : State) : (fetchByte s).tos = s.tos := rfl
@[simp] theorem fetchByte_opc (s : State) : (fetchByte s).opc = s.opc := rfl
@[simp] theorem fetchByte_h (s : State) : (fetchByte s).h = s.h := rfl
@[simp] theorem fetchByte_mbr (s : State) : (fetchByte s).mbr = s.mem.read s.pc.toNat := rfl
@[simp] theorem fetchByte_mir (s : State) : (fetchByte s).mir = s.mir := rfl
@[simp] theorem fetchByte_mpc (s : State) : (fetchByte s).mpc = s.mpc := rfl
@[simp] theorem fetchByte_n (s : State) : (fetchByte s).n = s.n := rfl
@[simp] theorem fetchByte_z (s : State) : (fetchByte s).z = s.z := rfl
@[simp] theorem fetchByte_cl (s : State) : (fetchByte s).cl = s.cl := rfl
@[simp] theorem fetchByte_status (s : State) : (fetchByte s).status = s.status := rfl
@[simp] theorem fetchByte_cs (s : State) : (fetchByte s).cs = s.cs := rfl
@[simp] theorem fetchByte_mem (s : State) : (fetchByte s).mem = s.mem := rfl
@[simp] theorem fetchByte_cap (s : State) : (fetchByte s).cap = s.cap := rfl
@[simp] theorem fetchByte_trace (s : State) : (fetchByte s).trace = s.trace := rfl
@[simp] theorem fetchByte_busB (s : State) : (fetchByte s).busB = s.busB := rfl
@[simp] theorem fetchByte_aluR (s : State) : (fetchByte s).aluR = s.aluR := rfl
@[simp] theorem fetchByte_faultPending (s : State) : (fetchByte s).faultPending = s.faultPending := rfl

/-! ### loadWord -/

@[simp] theorem loadWord_mar (s : State) : (loadWord s).mar = s.mar := rfl
@[simp] theorem loadWord_mdr (s : State) : (loadWord s).mdr = s.mem.readWord (wordAddr s) := rfl
@[simp] theorem loadWord_pc (s : State) : (loadWord s).pc = s.pc := rfl
@[simp] theorem loadWord_sp (s : State) : (loadWord s).sp = s.sp := rfl
@[simp] theorem loadWord_lv (s : State) : (loadWord s).lv = s.lv := rfl
@[simp] theorem loadWord_cpp (s : State) : (loadWord s).cpp = s.cpp := rfl
@[simp] theorem loadWord_tos (s : State) : (loadWord s).tos = s.tos := rfl
@[simp] theorem loadWord_opc (s : State) : (loadWord s).opc = s.opc := rfl
@[simp] theorem loadWord_h (s : State) : (loadWord s).h = s.h := rfl
@[simp] theorem loadWord_mbr (s : State) : (loadWord s).mbr = s.mbr := rfl
@[simp] theorem loadWord_mir (s : State) : (loadWord s).mir = s.mir := rfl
@[simp] theorem loadWord_mpc (s : State) : (loadWord s).mpc = s.mpc := rfl
@[simp] theorem loadWord_n (s : State) : (loadWord s).n = s.n := rfl
@[simp] theorem loadWord_z (s : State) : (loadWord s).z = s.z := rfl
@[simp] theorem loadWord_cl (s : State) : (loadWord s).cl = s.cl := rfl
@[simp] theorem loadWord_status (s : State) : (loadWord s).status = s.status := rfl
@[simp] theorem loadWord_cs (s : State) : (loadWord s).cs = s.cs := rfl
@[simp] theorem loadWord_mem (s : State) : (loadWord s).mem = s.mem := rfl
@[simp] theorem loadWord_cap (s : State) : (loadWord s).cap = s.cap := rfl
@[simp] theorem loadWord_trace (s : State) : (loadWord s).trace = s.trace := rfl
@[simp] theorem loadWord_busB (s : State) : (loadWord s).busB = s.busB := rfl
@[simp] theorem loadWord_aluR (s : State) : (loadWord s).aluR = s.aluR := rfl
@[simp] theorem loadWord_faultPending (s : State) : (loadWord s).faultPending = s.faultPending := rfl

/-! ### storeWord -/

@[simp] theorem storeWord_mar (s : State) : (storeWord s).mar = s.mar := rfl
@[simp] theorem storeWord_mdr (s : State) : (storeWord s).mdr = s.mdr := rfl
@[simp] theorem storeWord_pc (s : State) : (storeWord s).pc = s.pc := rfl
@[simp] theorem storeWord_sp (s : State) : (storeWord s).sp = s.sp := rfl
@[simp] theorem storeWord_lv (s : State) : (storeWord s).lv = s.lv := rfl
@[simp] theorem storeWord_cpp (s : State) : (storeWord s).cpp = s.cpp := rfl
@[simp] theorem storeWord_tos (s : State) : (storeWord s).tos = s.tos := rfl
@[simp] theorem storeWord_opc (s : State) : (storeWord s).opc = s.opc := rfl
@[simp] theorem storeWord_h (s : State) : (storeWord s).h = s.h := rfl
@[simp] theorem storeWord_mbr (s : State) : (storeWord s).mbr = s.mbr := rfl
@[simp] theorem storeWord_mir (s : State) : (storeWord s).mir = s.mir := rfl
@[simp] theorem storeWord_mpc (s : State) : (storeWord s).mpc = s.mpc := rfl
@[simp] theorem storeWord_n (s : State) : (storeWord s).n = s.n := rfl
@[simp] theorem storeWord_z (s : State) : (storeWord s).z = s.z := rfl
@[simp] theorem storeWord_cl (s : State) : (storeWord s).cl = s.cl := rfl
@[simp] theorem storeWord_status (s : State) : (storeWord s).status = s.status := rfl
@[simp] theorem storeWord_cs (s : State) : (storeWord s).cs = s.cs := rfl
@[simp] theorem storeWord_mem (s : State) : (storeWord s).mem = s.mem.writeWord (wordAddr s) s.mdr := rfl
@[simp] theorem storeWord_cap (s : State) : (storeWord s).cap = s.cap := rfl
@[simp] theorem storeWord_trace (s : State) : (storeWord s).trace = s.trace := rfl
@[simp] theorem storeWord_busB (s : State) : (storeWord s).busB = s.busB := rfl
@[simp] theorem storeWord_aluR (s : State) : (storeWord s).aluR = s.aluR := rfl
@[simp] theorem storeWord_faultPending (s : State) : (storeWord s).faultPending = s.faultPending := rfl

/-! ### orMpc -/

@[simp] theorem orMpc_mar (v : Slot) (s : State) : (orMpc v s).mar = s.mar := rfl
@[simp] theorem orMpc_mdr (v : Slot) (s : State) : (orMpc v s).mdr = s.mdr := rfl
@[simp] theorem orMpc_pc (v : Slot) (s : State) : (orMpc v s).pc = s.pc := rfl
@[simp] theorem orMpc_sp (v : Slot) (s : State) : (orMpc v s).sp = s.sp := rfl
@[simp] theorem orMpc_lv (v : Slot) (s : State) : (orMpc v s).lv = s.lv := rfl
@[simp] theorem orMpc_cpp (v : Slot) (s : State) : (orMpc v s).cpp = s.cpp := rfl
@[simp] theorem orMpc_tos (v : Slot) (s : State) : (orMpc v s).tos = s.tos := rfl
@[simp] theorem orMpc_opc (v : Slot) (s : State) : (orMpc v s).opc = s.opc := rfl
@[simp] theorem orMpc_h (v : Slot) (s : State) : (orMpc v s).h = s.h := rfl
@[simp] theorem orMpc_mbr (v : Slot) (s : State) : (orMpc v s).mbr = s.mbr := rfl
@[simp] theorem orMpc_mir (v : Slot) (s : State) : (orMpc v s).mir = s.mir := rfl
@[simp] theorem orMpc_mpc (v : Slot) (s : State) : (orMpc v s).mpc = s.mpc ||| v := rfl
@[simp] theorem orMpc_n (v : Slot) (s : State) : (orMpc v s).n = s.n := rfl
@[simp] theorem orMpc_z (v : Slot) (s : State) : (orMpc v s).z = s.z := rfl
@[simp] theorem orMpc_cl (v : Slot) (s : State) : (orMpc v s).cl = s.cl := rfl
@[simp] theorem orMpc_status (v : Slot) (s : State) : (orMpc v s).status = s.status := rfl
@[simp] theorem orMpc_cs (v : Slot) (s : State) : (orMpc v s).cs = s.cs := rfl
@[simp] theorem orMpc_mem (v : Slot) (s : State) : (orMpc v s).mem = s.mem := rfl
@[simp] theorem orMpc_cap (v : Slot) (s : State) : (orMpc v s).cap = s.cap := rfl
@[simp] theorem orMpc_trace (v : Slot) (s : State) : (orMpc v s).trace = s.trace := rfl
@[simp] theorem orMpc_busB (v : Slot) (s : State) : (orMpc v s).busB = s.busB := rfl
@[simp] theorem orMpc_aluR (v : Slot) (s : State) : (orMpc v s).aluR = s.aluR := rfl
@[simp] theorem orMpc_faultPending (v : Slot) (s : State) : (orMpc v s).faultPending = s.faultPending := rfl

/-! ### clearTransients -/

@[simp] theorem clearTransients_mar (s : State) : (clearTransients s).mar = s.mar := rfl
@[simp] theorem clearTransients_mdr (s : State) : (clearTransients s).mdr = s.mdr := rfl
@[simp] theorem clearTransients_pc (s : State) : (clearTransients s).pc = s.pc := rfl
@[simp] theorem clearTransients_sp (s : State) : (clearTransients s).sp = s.sp := rfl
@[simp] theorem clearTransients_lv (s : State) : (clearTransients s).lv = s.lv := rfl
@[simp] theorem clearTransients_cpp (s : State) : (clearTransients s).cpp = s.cpp := rfl
@[simp] theorem clearTransients_tos (s : State) : (clearTransients s).tos = s.tos := rfl
@[simp] theorem clearTransients_opc (s : State) : (clearTransients s).opc = s.opc := rfl
@[simp] theorem clearTransients_h (s : State) : (clearTransients s).h = s.h := rfl
@[simp] theorem clearTransients_mbr (s : State) : (clearTransients s).mbr = s.mbr := rfl
@[simp] theorem clearTransients_mir (s : State) : (clearTransients s).mir = s.mir := rfl
@[simp] theorem clearTransients_mpc (s : State) : (clearTransients s).mpc = s.mpc := rfl
@[simp] theorem clearTransients_n (s : State) : (clearTransients s).n = s.n := rfl
@[simp] theorem clearTransients_z (s : State) : (clearTransients s).z = s.z := rfl
@[simp] theorem clearTransients_cl (s : State) : (clearTransients s).cl = s.cl := rfl
@[simp] theorem clearTransients_status (s : State) : (clearTransients s).status = s.status := rfl
@[simp] theorem clearTransients_cs (s : State) : (clearTransients s).cs = s.cs := rfl
@[simp] theorem clearTransients_mem (s : State) : (clearTransients s).mem = s.mem := rfl
@[simp] theorem clearTransients_cap (s : State) : (clearTransients s).cap = s.cap := rfl
@[simp] theorem clearTransients_trace (s : State) : (clearTransients s).trace = s.trace := rfl
@[simp] theorem clearTransients_busB (s : State) : (clearTransients s).busB = 0#32 := rfl
@[simp] theorem clearTransients_aluR (s : State) : (clearTransients s).aluR = 0#32 := rfl
@[simp] theorem clearTransients_faultPending (s : State) : (clearTransients s).faultPending = false := rfl

/-! ### beginCycle -/

@[simp] theorem beginCycle_mar (s : State) : (beginCycle s).mar = s.mar := rfl
@[simp] theorem beginCycle_mdr (s : State) : (beginCycle s).mdr = s.mdr := rfl
@[simp] theorem beginCycle_pc (s : State) : (beginCycle s).pc = s.pc := rfl
@[simp] theorem beginCycle_sp (s : State) : (beginCycle s).sp = s.sp := rfl
@[simp] theorem beginCycle_lv (s : State) : (beginCycle s).lv = s.lv := rfl
@[simp] theorem beginCycle_cpp (s : State) : (beginCycle s).cpp = s.cpp := rfl
@[simp] theorem beginCycle_tos (s : State) : (beginCycle s).tos = s.tos := rfl
@[simp] theorem beginCycle_opc (s : State) : (beginCycle s).opc = s.opc := rfl
@[simp] theorem beginCycle_h (s : State) : (beginCycle s).h = s.h := rfl
@[simp] theorem beginCycle_mbr (s : State) : (beginCycle s).mbr = s.mbr := rfl
@[simp] theorem beginCycle_mir (s : State) : (beginCycle s).mir = controlWord s.cs s.mpc := rfl
@[simp] theorem beginCycle_mpc (s : State) : (beginCycle s).mpc = s.mpc := rfl
@[simp] theorem beginCycle_n (s : State) : (beginCycle s).n = s.n := rfl
@[simp] theorem beginCycle_z (s : State) : (beginCycle s).z = s.z := rfl
@[simp] theorem beginCycle_cl (s : State) : (beginCycle s).cl = s.cl := rfl
@[simp] theorem beginCycle_status (s : State) : (beginCycle s).status = s.status := rfl
@[simp] theorem beginCycle_cs (s : State) : (beginCycle s).cs = s.cs := rfl
@[simp] theorem beginCycle_mem (s : State) : (beginCycle s).mem = s.mem := rfl
@[simp] theorem beginCycle_cap (s : State) : (beginCycle s).cap = s.cap := rfl
@[simp] theorem beginCycle_trace (s : State) : (beginCycle s).trace = s.trace := rfl
@[simp] theorem beginCycle_busB (s : State) : (beginCycle s).busB = 0#32 := rfl
@[simp] theorem beginCycle_aluR (s : State) : (beginCycle s).aluR = 0#32 := rfl
@[simp] theorem beginCycle_faultPending (s : State) : (beginCycle s).faultPending = false := rfl

/-! ### raiseBounds -/

@[simp] theorem raiseBounds_mar (s : State) : (raiseBounds s).mar = s.mar := by
  unfold raiseBounds; split <;> rfl
@[simp] theorem raiseBounds_mdr (s : State) : (raiseBounds s).mdr = s.mdr := by
  unfold raiseBounds; split <;> rfl
@[simp] theorem raiseBounds_pc (s : State) : (raiseBounds s).pc = s.pc := by
  unfold raiseBounds; split <;> rfl
@[simp] theorem raiseBounds_sp (s : State) : (raiseBounds s).sp = s.sp := by
  unfold raiseBounds; split <;> rfl
@[simp] theorem raiseBounds_lv (s : State) : (raiseBounds s).lv = s.lv := by
  unfold raiseBounds; split <;> rfl
@[simp] theorem raiseBounds_cpp (s : State) : (raiseBounds s).cpp = s.cpp := by
  unfold raiseBounds; split <;> rfl
@[simp] theorem raiseBounds_tos (s : State) : (raiseBounds s).tos = s.tos := by
  unfold raiseBounds; split <;> rfl
@[simp] theorem raiseBounds_opc (s : State) : (raiseBounds s).opc = s.opc := by
  unfold raiseBounds; split <;> rfl
@[simp] theorem raiseBounds_h (s : State) : (raiseBounds s).h = s.h := by
  unfold raiseBounds; split <;> rfl
@[simp] theorem raiseBounds_mbr (s : State) : (raiseBounds s).mbr = s.mbr := by
  unfold raiseBounds; split <;> rfl
@[simp] theorem raiseBounds_mir (s : State) : (raiseBounds s).mir = s.mir := by
  unfold raiseBounds; split <;> rfl
@[simp] theorem raiseBounds_mpc (s : State) : (raiseBounds s).mpc = s.mpc := by
  unfold raiseBounds; split <;> rfl
@[simp] theorem raiseBounds_n (s : State) : (raiseBounds s).n = s.n := by
  unfold raiseBounds; split <;> rfl
@[simp] theorem raiseBounds_z (s : State) : (raiseBounds s).z = s.z := by
  unfold raiseBounds; split <;> rfl
@[simp] theorem raiseBounds_cl (s : State) : (raiseBounds s).cl = s.cl := by
  unfold raiseBounds; split <;> rfl
@[simp] theorem raiseBounds_status (s : State) : (raiseBounds s).status = s.status := by
  unfold raiseBounds; split <;> rfl
@[simp] theorem raiseBounds_cs (s : State) : (raiseBounds s).cs = s.cs := by
  unfold raiseBounds; split <;> rfl
@[simp] theorem raiseBounds_mem (s : State) : (raiseBounds s).mem = s.mem := by
  unfold raiseBounds; split <;> rfl
@[simp] theorem raiseBounds_cap (s : State) : (raiseBounds s).cap = s.cap := by
  unfold raiseBounds; split <;> rfl
@[simp] theorem raiseBounds_busB (s : State) : (raiseBounds s).busB = s.busB := by
  unfold raiseBounds; split <;> rfl
@[simp] theorem raiseBounds_aluR (s : State) : (raiseBounds s).aluR = s.aluR := by
  unfold raiseBounds; split <;> rfl

@[simp] theorem raiseBounds_faultPending (s : State) : (raiseBounds s).faultPending = true := by
  unfold raiseBounds; split <;> simp_all

theorem raiseBounds_trace (s : State) : (raiseBounds s).trace =
    if s.faultPending then s.trace else s.trace ++ [boundsEvent s] := by
  unfold raiseBounds; split <;> rfl

theorem raiseBounds_of_pending {s : State} (h : s.faultPending = true) : raiseBounds s = s := by
  simp [raiseBounds, h]

/-! ### boundsCheck -/

@[simp] theorem boundsCheck_mar (s : State) : (boundsCheck s).mar = s.mar := by
  unfold boundsCheck; split <;> simp
@[simp] theorem boundsCheck_mdr (s : State) : (boundsCheck s).mdr = s.mdr := by
  unfold boundsCheck; split <;> simp
@[simp] theorem boundsCheck_pc (s : State) : (boundsCheck s).pc = s.pc := by
  unfold boundsCheck; split <;> simp
@[simp] theorem boundsCheck_sp (s : State) : (boundsCheck s).sp = s.sp := by
  unfold boundsCheck; split <;> simp
@[simp] theorem boundsCheck_lv (s : State) : (boundsCheck s).lv = s.lv := by
  unfold boundsCheck; split <;> simp
@[simp] theorem boundsCheck_cpp (s : State) : (boundsCheck s).cpp = s.cpp := by
  unfold boundsCheck; split <;> simp
@[simp] theorem boundsCheck_tos (s : State) : (boundsCheck s).tos = s.tos := by
  unfold boundsCheck; split <;> simp
@[simp] theorem boundsCheck_opc (s : State) : (boundsCheck s).opc = s.opc := by
  unfold boundsCheck; split <;> simp
@[simp] theorem boundsCheck_h (s : State) : (boundsCheck s).h = s.h := by
  unfold boundsCheck; split <;> simp
@[simp] theorem boundsCheck_mbr (s : State) : (boundsCheck s).mbr = s.mbr := by
  unfold boundsCheck; split <;> simp
@[simp] theorem boundsCheck_mir (s : State) : (boundsCheck s).mir = s.mir := by
  unfold boundsCheck; split <;> simp
@[simp] theorem boundsCheck_mpc (s : State) : (boundsCheck s).mpc = s.mpc := by
  unfold boundsCheck; split <;> simp
@[simp] theorem boundsCheck_n (s : State) : (boundsCheck s).n = s.n := by
  unfold boundsCheck; split <;> simp
@[simp] theorem boundsCheck_z (s : State) : (boundsCheck s).z = s.z := by
  unfold boundsCheck; split <;> simp
@[simp] theorem boundsCheck_cl (s : State) : (boundsCheck s).cl = s.cl := by
  unfold boundsCheck; split <;> simp
@[simp] theorem boundsCheck_status (s : State) : (boundsCheck s).status = s.status := by
  unfold boundsCheck; split <;> simp
@[simp] theorem boundsCheck_cs (s : State) : (boundsCheck s).cs = s.cs := by
  unfold boundsCheck; split <;> simp
@[simp] theorem boundsCheck_mem (s : State) : (boundsCheck s).mem = s.mem := by
  unfold boundsCheck; split <;> simp
@[simp] theorem boundsCheck_cap (s : State) : (boundsCheck s).cap = s.cap := by
  unfold boundsCheck; split <;> simp
@[simp] theorem boundsCheck_busB (s : State) : (boundsCheck s).busB = s.busB := by
  unfold boundsCheck; split <;> simp
@[simp] theorem boundsCheck_aluR (s : State) : (boundsCheck s).aluR = s.aluR := by
  unfold boundsCheck; split <;> simp

theorem boundsCheck_of_inBounds {s : State} (h : inBounds s = true) : boundsCheck s = s := by
  simp [boundsCheck, h]

theorem boundsCheck_of_not_inBounds {s : State} (h : inBounds s = false) : boundsCheck s = raiseBounds s := by
  simp [boundsCheck, h]

/-! ### memoryAccess -/

theorem memoryAccess_of_inBounds {access : State → State} {s : State} (h : inBounds s = true) :
    memoryAccess access s = access s := by simp [memoryAccess, h]

theorem memoryAccess_of_not_inBounds {access : State → State} {s : State} (h : inBounds s = false) :
    memoryAccess access s = raiseBounds s := by simp [memoryAccess, h]

/-! ### terminationCheck -/

@[simp] theorem terminationCheck_mar (slot : Slot) (s : State) : (terminationCheck slot s).mar = s.mar := by
  unfold terminationCheck; split <;> [rfl; (split <;> rfl)]
@[simp] theorem terminationCheck_mdr (slot : Slot) (s : State) : (terminationCheck slot s).mdr = s.mdr := by
  unfold terminationCheck; split <;> [rfl; (split <;> rfl)]
@[simp] theorem terminationCheck_pc (slot : Slot) (s : State) : (terminationCheck slot s).pc = s.pc := by
  unfold terminationCheck; split <;> [rfl; (split <;> rfl)]
@[simp] theorem terminationCheck_sp (slot : Slot) (s : State) : (terminationCheck slot s).sp = s.sp := by
  unfold terminationCheck; split <;> [rfl; (split <;> rfl)]
@[simp] theorem terminationCheck_lv (slot : Slot) (s : State) : (terminationCheck slot s).lv = s.lv := by
  unfold terminationCheck; split <;> [rfl; (split <;> rfl)]
@[simp] theorem terminationCheck_cpp (slot : Slot) (s : State) : (terminationCheck slot s).cpp = s.cpp := by
  unfold terminationCheck; split <;> [rfl; (split <;> rfl)]
@[simp] theorem terminationCheck_tos (slot : Slot) (s : State) : (terminationCheck slot s).tos = s.tos := by
  unfold terminationCheck; split <;> [rfl; (split <;> rfl)]
@[simp] theorem terminationCheck_opc (slot : Slot) (s : State) : (terminationCheck slot s).opc = s.opc := by
  unfold terminationCheck; split <;> [rfl; (split <;> rfl)]
@[simp] theorem terminationCheck_h (slot : Slot) (s : State) : (terminationCheck slot s).h = s.h := by
  unfold terminationCheck; split <;> [rfl; (split <;> rfl)]
@[simp] theorem terminationCheck_mbr (slot : Slot) (s : State) : (terminationCheck slot s).mbr = s.mbr := by
  unfold terminationCheck; split <;> [rfl; (split <;> rfl)]
@[simp] theorem terminationCheck_mir (slot : Slot) (s : State) : (terminationCheck slot s).mir = s.mir := by
  unfold terminationCheck; split <;> [rfl; (split <;> rfl)]
@[simp] theorem terminationCheck_mpc (slot : Slot) (s : State) : (terminationCheck slot s).mpc = s.mpc := by
  unfold terminationCheck; split <;> [rfl; (split <;> rfl)]
@[simp] theorem terminationCheck_n (slot : Slot) (s : State) : (terminationCheck slot s).n = s.n := by
  unfold terminationCheck; split <;> [rfl; (split <;> rfl)]
@[simp] theorem terminationCheck_z (slot : Slot) (s : State) : (terminationCheck slot s).z = s.z := by
  unfold terminationCheck; split <;> [rfl; (split <;> rfl)]
@[simp] theorem terminationCheck_cl (slot : Slot) (s : State) : (terminationCheck slot s).cl = s.cl := by
  unfold terminationCheck; split <;> [rfl; (split <;> rfl)]
@[simp] theorem terminationCheck_cs (slot : Slot) (s : State) : (terminationCheck slot s).cs = s.cs := by
  unfold terminationCheck; split <;> [rfl; (split <;> rfl)]
@[simp] theorem terminationCheck_mem (slot : Slot) (s : State) : (terminationCheck slot s).mem = s.mem := by
  unfold terminationCheck; split <;> [rfl; (split <;> rfl)]
@[simp] theorem terminationCheck_cap (slot : Slot) (s : State) : (terminationCheck slot s).cap = s.cap := by
  unfold terminationCheck; split <;> [rfl; (split <;> rfl)]
@[simp] theorem terminationCheck_busB (slot : Slot) (s : State) : (terminationCheck slot s).busB = s.busB := by
  unfold terminationCheck; split <;> [rfl; (split <;> rfl)]
@[simp] theorem terminationCheck_aluR (slot : Slot) (s : State) : (terminationCheck slot s).aluR = s.aluR := by
  unfold terminationCheck; split <;> [rfl; (split <;> rfl)]
@[simp] theorem terminationCheck_faultPending (slot : Slot) (s : State) : (terminationCheck slot s).faultPending = s.faultPending := by
  unfold terminationCheck; split <;> [rfl; (split <;> rfl)]

/-- Everything the termination check can do (46_cycle_engine.md R132). -/
theorem terminationCheck_cases (slot : Slot) (s : State) :
    (s.mbr = Config.haltSentinel ∧ terminationCheck slot s =
      record (.haltSentinel s.pc slot) { s with status := .haltedNormal }) ∨
    (s.mbr ≠ Config.haltSentinel ∧ (pcOk s = false ∨ s.faultPending = true) ∧
      terminationCheck slot s = { s with status := .haltedFault }) ∨
    (s.mbr ≠ Config.haltSentinel ∧ pcOk s = true ∧ s.faultPending = false ∧ terminationCheck slot s = s) := by
  by_cases h : s.mbr = Config.haltSentinel
  · exact .inl ⟨h, by simp [terminationCheck, h]⟩
  · cases hp : pcOk s <;> cases hf : s.faultPending <;> simp [terminationCheck, h, hp, hf]

/-! ### The bounds checks as propositions -/

theorem pcOk_iff (s : State) : pcOk s = true ↔ s.pc.toNat < s.cap := by simp [pcOk]

theorem marOk_iff (s : State) : marOk s = true ↔ 4 * s.mar.toNat < s.cap := by simp [marOk, wordAddr]

theorem inBounds_iff (s : State) : inBounds s = true ↔ s.pc.toNat < s.cap ∧ 4 * s.mar.toNat < s.cap := by
  simp [inBounds, pcOk_iff, marOk_iff]

/-! ### The bounds checks read PC, MAR and CAP only -/

theorem inBounds_congr {s t : State} (hpc : t.pc = s.pc) (hmar : t.mar = s.mar) (hcap : t.cap = s.cap) :
    inBounds t = inBounds s := by
  unfold inBounds pcOk marOk wordAddr; rw [hpc, hmar, hcap]

@[simp] theorem inBounds_clearTransients (s : State) : inBounds (clearTransients s) = inBounds s := rfl

@[simp] theorem inBounds_record (e : Event) (s : State) : inBounds (record e s) = inBounds s := rfl

@[simp] theorem inBounds_fetchByte (s : State) : inBounds (fetchByte s) = inBounds s := rfl

@[simp] theorem inBounds_loadWord (s : State) : inBounds (loadWord s) = inBounds s := rfl

@[simp] theorem inBounds_storeWord (s : State) : inBounds (storeWord s) = inBounds s := rfl

@[simp] theorem inBounds_raiseBounds (s : State) : inBounds (raiseBounds s) = inBounds s :=
  inBounds_congr (by simp) (by simp) (by simp)

@[simp] theorem inBounds_boundsCheck (s : State) : inBounds (boundsCheck s) = inBounds s :=
  inBounds_congr (by simp) (by simp) (by simp)

end Sys2Proof.Machine
end

