-- ==== Sys2Proof/Laws/Cycle.lean ====
section
/-! SUPPORT. Laws of running rows and of the step: every row answers a next state, rows run one after another, and a step
is a cycle exactly while the machine runs. -/

namespace Sys2Proof.Machine

@[simp] theorem andThen_next (s : State) (k : State → Host.Outcome State Fault Refusal) :
    andThen (.next s) k = k s := rfl

theorem andThen_assoc (o : Host.Outcome State Fault Refusal) (k l : State → Host.Outcome State Fault Refusal) :
    andThen (andThen o k) l = andThen o fun s => andThen (k s) l := by
  cases o <;> rfl

/-- No row stops: each answers a next state (30_encoding.md R64). -/
theorem exec_total (i : Instr) (s : State) : ∃ t, exec i s = .next t := by
  cases i <;> exact ⟨_, rfl⟩

@[simp] theorem runRows_nil (s : State) : runRows [] s = .next s := rfl

theorem runRows_cons (i : Instr) (rest : List Instr) (s : State) :
    runRows (i :: rest) s = andThen (exec i s) (runRows rest) := rfl

theorem runRows_append (xs ys : List Instr) (s : State) :
    runRows (xs ++ ys) s = andThen (runRows xs s) (runRows ys) := by
  induction xs generalizing s with
  | nil => rfl
  | cons i rest ih =>
    simp only [List.cons_append, runRows_cons, andThen_assoc]
    congr 1
    funext t
    exact ih t

/-- Running rows never stops. -/
theorem runRows_total (rows : List Instr) (s : State) : ∃ t, runRows rows s = .next t := by
  induction rows generalizing s with
  | nil => exact ⟨s, rfl⟩
  | cons i rest ih =>
    obtain ⟨t, ht⟩ := exec_total i s
    rw [runRows_cons, ht]
    exact ih t

/-- A bit row runs exactly when its bit is set. -/
theorem runRows_rowIf (bit : Bool) (i : Instr) (s : State) :
    runRows (rowIf bit i) s = if bit then exec i s else .next s := by
  cases bit
  · rfl
  · obtain ⟨t, ht⟩ := exec_total i s
    simp [rowIf, runRows_cons, ht]

/-- A step while the machine runs is a cycle (46_cycle_engine.md R129). -/
theorem step_of_running {s : State} (h : s.status = .running) : step s = cycle s := by
  simp [step, h]

/-- A next state comes from a running machine. -/
theorem running_of_step {s t : State} (h : step s = .next t) : s.status = .running := by
  unfold step at h
  split at h
  · assumption
  · cases h
  · cases h

end Sys2Proof.Machine
end

