-- ==== Sys2Proof/Laws/Decode.lean ====
section
/-! SUPPORT. Laws of decoding: which rows a word holds, field by field, and the fields of a row's own word. -/

namespace Sys2Proof

theorem mem_rowIf {bit : Bool} {i j : Instr} : i ∈ rowIf bit j ↔ bit = true ∧ i = j := by
  cases bit <;> simp [rowIf]

theorem bRow_mem_decode (w : MicroWord) : bRow (unpack w).bSel ∈ decode w := by
  simp [decode, fieldRows, datapathRows]

theorem aluRow_mem_decode (w : MicroWord) : aluRow (unpack w).aluOp ∈ decode w := by
  simp [decode, fieldRows, datapathRows]

theorem shiftRow_mem_decode (w : MicroWord) : shiftRow (unpack w).shift ∈ decode w := by
  simp [decode, fieldRows, datapathRows]

theorem mpcNext_mem_decode (w : MicroWord) : Instr.mpcNext (unpack w).mpcNext ∈ decode w := by
  simp [decode, fieldRows, nextRows]

/-- The NEXT row's operand is read back from its own word. -/
theorem unpack_rowMatch_mpcNext (base : Slot) : (unpack (rowMatch (.mpcNext base))).mpcNext = base := by
  apply BitVec.eq_of_getLsbD_eq
  intro i hi
  simp only [unpack, rowMatch, BitVec.getLsbD_extractLsb', BitVec.getLsbD_shiftLeft, BitVec.getLsbD_setWidth]
  simp [hi, show 27 + i < 36 by omega, show i < 36 by omega]

/-- The decoder reads a record and leaves the bytes after it (70_reset_and_hazards.md R154). -/
theorem decodeRecord_cons (b0 b1 b2 b3 b4 b5 b6 b7 : Byte) (rest : List Byte) :
    decodeRecord (b0 :: b1 :: b2 :: b3 :: b4 :: b5 :: b6 :: b7 :: rest) =
      .ok (decode (recordWord b0 b1 b2 b3 b4 b5 b6 b7), rest) := rfl

/-- Fewer than eight bytes are no record. -/
theorem decodeRecord_short {bs : List Byte} (h : bs.length < 8) : decodeRecord bs = .error .shortRecord := by
  match bs, h with
  | [], _ | [_], _ | [_, _], _ | [_, _, _], _ | [_, _, _, _], _ | [_, _, _, _, _], _ | [_, _, _, _, _, _], _
  | [_, _, _, _, _, _, _], _ => rfl
  | _ :: _ :: _ :: _ :: _ :: _ :: _ :: _ :: _, h => simp only [List.length_cons] at h; omega

/-- A table word's answer is one of the rows decoded from the word. -/
theorem decodeTableWord_mem {nbits w : Nat} {i : Instr} (h : decodeTableWord nbits w = some i) :
    ∃ ops rest, decodeRecord (recordOf ((BitVec.ofNat 36 (w % 2 ^ nbits)).setWidth 64)) = .ok (ops, rest) ∧
      i ∈ ops := by
  simp only [decodeTableWord] at h
  split at h
  · next ops rest heq =>
    split at h
    · next hm => exact ⟨ops, rest, heq, by simpa using (Option.some.inj h) ▸ hm⟩
    · cases h
  · cases h

end Sys2Proof
end

