-- ==== Sys2Proof/Laws/Memory.lean ====
section
/-! SUPPORT. Laws of main memory: what a read gives after a write, that every operation keeps the canonical form, and that
none lists an address it was not given. -/

namespace Sys2Proof.Machine

theorem read_of_lt_head {m : Memory} {a : Nat} (h : ∀ c ∈ m, a < c.1) : m.read a = unlistedByte := by
  induction m with
  | nil => rfl
  | cons c rest ih =>
    obtain ⟨k, b⟩ := c
    have hk : a < k := h (k, b) (by simp)
    simp only [Memory.read, if_neg (Nat.ne_of_gt hk)]
    exact ih fun c hc => h c (by simp [hc])

/-- The canonical form, unfolded at the first entry. -/
theorem wf_cons (k : Nat) (b : Byte) (rest : Memory) : Memory.wf ((k, b) :: rest) = true ↔
    b ≠ unlistedByte ∧ (∀ c ∈ rest, k < c.1) ∧ rest.wf = true := by
  induction rest generalizing k b with
  | nil => simp [Memory.wf]
  | cons c rest ih =>
    obtain ⟨k', b'⟩ := c
    simp only [Memory.wf, Bool.and_eq_true, bne_iff_ne, decide_eq_true_eq, List.mem_cons, forall_eq_or_imp]
    constructor
    · rintro ⟨⟨hb, hk⟩, hw⟩
      exact ⟨hb, ⟨hk, fun c hc => Nat.lt_trans hk (((ih k' b').1 hw).2.1 c hc)⟩, hw⟩
    · rintro ⟨hb, ⟨hk, -⟩, hw⟩
      exact ⟨⟨hb, hk⟩, hw⟩

/-- A write lists only its own address and addresses that were listed. -/
theorem mem_write {m : Memory} {a : Nat} {v : Byte} {c : Host.Cell} (h : c ∈ m.write a v) :
    c = (a, v) ∨ c ∈ m := by
  induction m with
  | nil =>
    simp only [Memory.write] at h
    split at h <;> simp_all
  | cons d rest ih =>
    obtain ⟨k, b⟩ := d
    simp only [Memory.write] at h
    split_ifs at h with h1 h2 h3 h4
    · exact .inr h
    · rcases List.mem_cons.1 h with rfl | h
      · exact .inl rfl
      · exact .inr h
    · exact .inr (by simp [h])
    · rcases List.mem_cons.1 h with rfl | h
      · exact .inl rfl
      · exact .inr (by simp [h])
    · rcases List.mem_cons.1 h with rfl | h
      · exact .inr (by simp)
      · rcases ih h with h | h
        · exact .inl h
        · exact .inr (by simp [h])

/-- Writing one byte keeps the canonical form. -/
theorem wf_write {m : Memory} (a : Nat) (v : Byte) (h : m.wf = true) : (m.write a v).wf = true := by
  induction m with
  | nil =>
    simp only [Memory.write]
    split
    · rfl
    · simp_all [Memory.wf]
  | cons d rest ih =>
    obtain ⟨k, b⟩ := d
    obtain ⟨hb, hk, hr⟩ := (wf_cons k b rest).1 h
    simp only [Memory.write]
    split_ifs with h1 h2 h3 h4
    · exact h
    · refine (wf_cons _ _ _).2 ⟨h2, fun c hc => ?_, h⟩
      rcases List.mem_cons.1 hc with rfl | hc
      · exact h1
      · exact Nat.lt_trans h1 (hk c hc)
    · exact hr
    · subst h3
      exact (wf_cons _ _ _).2 ⟨h4, hk, hr⟩
    · refine (wf_cons _ _ _).2 ⟨hb, fun c hc => ?_, ih hr⟩
      rcases mem_write hc with rfl | hc
      · simp only; omega
      · exact hk c hc

/-- Read after write, in canonical memory: the byte written at its address, every other byte as before. -/
theorem read_write {m : Memory} (a : Nat) (v : Byte) (x : Nat) (h : m.wf = true) :
    (m.write a v).read x = if x = a then v else m.read x := by
  induction m with
  | nil =>
    simp only [Memory.write]
    split
    · simp_all [Memory.read]
    · simp only [Memory.read, eq_comm]
  | cons d rest ih =>
    obtain ⟨k, b⟩ := d
    obtain ⟨hb, hk, hr⟩ := (wf_cons k b rest).1 h
    rcases Nat.lt_trichotomy a k with hak | rfl | hka
    · have hrest : Memory.read ((k, b) :: rest) a = unlistedByte := read_of_lt_head fun c hc => by
        rcases List.mem_cons.1 hc with rfl | hc
        · exact hak
        · exact Nat.lt_trans hak (hk c hc)
      by_cases hv : v = unlistedByte
      · simp only [Memory.write, if_pos hak, if_pos hv]
        split
        · next hx => rw [hx, hrest, hv]
        · rfl
      · simp only [Memory.write, if_pos hak, if_neg hv]
        simp only [Memory.read, eq_comm]
    · by_cases hv : v = unlistedByte
      · simp only [Memory.write, Nat.lt_irrefl, if_false, if_true, if_pos hv, Memory.read]
        by_cases hx : x = a
        · rw [if_pos hx, hx, hv, read_of_lt_head hk]
        · rw [if_neg hx, if_neg (Ne.symm hx)]
      · simp only [Memory.write, Nat.lt_irrefl, if_false, if_true, if_neg hv, Memory.read]
        by_cases hx : x = a
        · rw [if_pos hx, if_pos hx.symm]
        · rw [if_neg hx, if_neg (Ne.symm hx), if_neg (Ne.symm hx)]
    · simp only [Memory.write, if_neg (Nat.not_lt.2 (Nat.le_of_lt hka)), if_neg (Nat.ne_of_gt hka), Memory.read, ih hr]
      by_cases hx : x = a
      · rw [if_neg (by omega), if_pos hx, if_pos hx]
      · simp only [if_neg hx]

/-- Writing a word keeps the canonical form. -/
theorem wf_writeWord {m : Memory} (a : Nat) (v : Word) (h : m.wf = true) : (m.writeWord a v).wf = true :=
  wf_write _ _ (wf_write _ _ (wf_write _ _ (wf_write _ _ h)))

/-- A word write lists only the four addresses of the word and addresses that were listed. -/
theorem mem_writeWord {m : Memory} {a : Nat} {v : Word} {c : Host.Cell} (h : c ∈ m.writeWord a v) :
    (a ≤ c.1 ∧ c.1 < a + 4) ∨ c ∈ m := by
  unfold Memory.writeWord at h
  rcases mem_write h with rfl | h
  · exact .inl (by simp)
  rcases mem_write h with rfl | h
  · exact .inl (by simp)
  rcases mem_write h with rfl | h
  · exact .inl (by simp)
  rcases mem_write h with rfl | h
  · exact .inl (by simp)
  exact .inr h

/-- What a byte reads as after a word write (20_memory.md R37, R38). -/
theorem read_writeWord {m : Memory} (a : Nat) (v : Word) (x : Nat) (h : m.wf = true) :
    (m.writeWord a v).read x =
      if a ≤ x ∧ x < a + 4 then byteLane v (x - a) else m.read x := by
  have h0 := wf_write a (byteLane v 0) h
  have h1 := wf_write (a + 1) (byteLane v 1) h0
  have h2 := wf_write (a + 2) (byteLane v 2) h1
  rw [Memory.writeWord, read_write _ _ _ h2, read_write _ _ _ h1, read_write _ _ _ h0, read_write _ _ _ h]
  by_cases hx : a ≤ x ∧ x < a + 4
  · obtain ⟨k, rfl⟩ := Nat.exists_eq_add_of_le hx.1
    have hk : k = 0 ∨ k = 1 ∨ k = 2 ∨ k = 3 := by omega
    rcases hk with rfl | rfl | rfl | rfl <;> simp
  · simp only [hx, if_false]
    rw [if_neg (by omega), if_neg (by omega), if_neg (by omega), if_neg (by omega)]

/-- Loading bytes keeps the canonical form. -/
theorem wf_storeBytes (bs : List Byte) : ∀ (m : Memory) (a : Nat), m.wf = true → (storeBytes m a bs).wf = true := by
  induction bs with
  | nil => exact fun _ _ h => h
  | cons b rest ih => exact fun m a h => ih _ _ (wf_write a b h)

/-- Loading bytes lists only the addresses loaded and addresses that were listed. -/
theorem mem_storeBytes (bs : List Byte) : ∀ (m : Memory) (a : Nat) (c : Host.Cell), c ∈ storeBytes m a bs →
    (a ≤ c.1 ∧ c.1 < a + bs.length) ∨ c ∈ m := by
  induction bs with
  | nil => exact fun _ _ _ h => .inr h
  | cons b rest ih =>
    intro m a c h
    rcases ih _ _ _ h with h | h
    · exact .inl ⟨by omega, by simp only [List.length_cons]; omega⟩
    · rcases mem_write h with rfl | h
      · exact .inl ⟨Nat.le_refl _, by simp⟩
      · exact .inr h

/-- What a byte reads as after bytes are loaded from address `a` on. -/
theorem read_storeBytes (bs : List Byte) : ∀ (m : Memory) (a x : Nat), m.wf = true →
    (storeBytes m a bs).read x = if a ≤ x ∧ x < a + bs.length then bs.getD (x - a) 0#8 else m.read x := by
  induction bs with
  | nil => exact fun m a x _ => by rw [if_neg (by simp)]; rfl
  | cons b rest ih =>
    intro m a x h
    rw [storeBytes, ih _ _ _ (wf_write _ _ h), read_write _ _ _ h]
    by_cases hx : x = a
    · subst hx
      rw [if_neg (by omega), if_pos rfl, if_pos (by simp)]
      simp
    · rw [if_neg hx]
      by_cases hr : a + 1 ≤ x ∧ x < a + 1 + rest.length
      · rw [if_pos hr, if_pos (by simp only [List.length_cons]; omega), show x - a = (x - (a + 1)) + 1 by omega]
        simp
      · rw [if_neg hr, if_neg (by simp only [List.length_cons]; omega)]

/-- A byte lane of a word made of bytes is that byte (20_memory.md R37, R38). -/
theorem byteLane_wordOfBytes (b0 b1 b2 b3 : Byte) {k : Nat} (hk : k < 4) :
    byteLane (wordOfBytes b0 b1 b2 b3) k =
      if k = 0 then b0 else if k = 1 then b1 else if k = 2 then b2 else b3 := by
  apply BitVec.eq_of_getLsbD_eq
  intro i hi
  interval_cases k <;>
    simp only [byteLane, wordOfBytes, BitVec.getLsbD_extractLsb', BitVec.getLsbD_or, BitVec.getLsbD_shiftLeft,
      BitVec.getLsbD_setWidth] <;>
    interval_cases i <;> simp

/-- A word is made of its byte lanes (20_memory.md R37). -/
theorem wordOfBytes_byteLanes (v : Word) :
    wordOfBytes (byteLane v 0) (byteLane v 1) (byteLane v 2) (byteLane v 3) = v := by
  apply BitVec.eq_of_getLsbD_eq
  intro i hi
  simp only [byteLane, wordOfBytes, BitVec.getLsbD_extractLsb', BitVec.getLsbD_or, BitVec.getLsbD_shiftLeft,
    BitVec.getLsbD_setWidth]
  interval_cases i <;> simp

/-- A control-store slot after a record is loaded. -/
theorem controlWord_setIfInBounds (cs : Vector MicroWord 512) (k : Nat) (w : MicroWord) (i : Slot) :
    controlWord (cs.setIfInBounds k w) i = if k = i.toNat then w else controlWord cs i := by
  simp only [controlWord, Vector.getElem_setIfInBounds]

theorem wf_reset : State.reset.mem.wf = true := rfl

end Sys2Proof.Machine
end

