-- ==== Sys2Proof/Laws/PerInstr.lean ====
section
/-! SUPPORT. Statements about each row of the opcode table as syntax: the row is among the rows decoded from its
own word of the table. -/

namespace Sys2Proof.Laws.RowOfWord

/-- The row is one of the rows that the decoder reads from the row's own word, every other field 0. -/
def Statement (i : Instr) : Prop := i ∈ decode (rowMatch i)

theorem bMdr : Statement .bMdr := by unfold Statement; decide
theorem bPc : Statement .bPc := by unfold Statement; decide
theorem bMbr : Statement .bMbr := by unfold Statement; decide
theorem bMbru : Statement .bMbru := by unfold Statement; decide
theorem bSp : Statement .bSp := by unfold Statement; decide
theorem bLv : Statement .bLv := by unfold Statement; decide
theorem bCpp : Statement .bCpp := by unfold Statement; decide
theorem bTos : Statement .bTos := by unfold Statement; decide
theorem bOpc : Statement .bOpc := by unfold Statement; decide
theorem bInvalid9 : Statement .bInvalid9 := by unfold Statement; decide
theorem bInvalid10 : Statement .bInvalid10 := by unfold Statement; decide
theorem bInvalid11 : Statement .bInvalid11 := by unfold Statement; decide
theorem bInvalid12 : Statement .bInvalid12 := by unfold Statement; decide
theorem bInvalid13 : Statement .bInvalid13 := by unfold Statement; decide
theorem bInvalid14 : Statement .bInvalid14 := by unfold Statement; decide
theorem bInvalid15 : Statement .bInvalid15 := by unfold Statement; decide
theorem aluInvalid0 : Statement .aluInvalid0 := by unfold Statement; decide
theorem aluInvalid1 : Statement .aluInvalid1 := by unfold Statement; decide
theorem aluInvalid2 : Statement .aluInvalid2 := by unfold Statement; decide
theorem aluInvalid3 : Statement .aluInvalid3 := by unfold Statement; decide
theorem aluInvalid4 : Statement .aluInvalid4 := by unfold Statement; decide
theorem aluInvalid5 : Statement .aluInvalid5 := by unfold Statement; decide
theorem aluInvalid6 : Statement .aluInvalid6 := by unfold Statement; decide
theorem aluInvalid7 : Statement .aluInvalid7 := by unfold Statement; decide
theorem aluInvalid8 : Statement .aluInvalid8 := by unfold Statement; decide
theorem aluInvalid9 : Statement .aluInvalid9 := by unfold Statement; decide
theorem aluInvalid10 : Statement .aluInvalid10 := by unfold Statement; decide
theorem aluInvalid11 : Statement .aluInvalid11 := by unfold Statement; decide
theorem aluAnd : Statement .aluAnd := by unfold Statement; decide
theorem aluInvalid13 : Statement .aluInvalid13 := by unfold Statement; decide
theorem aluInvalid14 : Statement .aluInvalid14 := by unfold Statement; decide
theorem aluInvalid15 : Statement .aluInvalid15 := by unfold Statement; decide
theorem aluInvalid16 : Statement .aluInvalid16 := by unfold Statement; decide
theorem aluOne : Statement .aluOne := by unfold Statement; decide
theorem aluMinus1 : Statement .aluMinus1 := by unfold Statement; decide
theorem aluInvalid19 : Statement .aluInvalid19 := by unfold Statement; decide
theorem aluB : Statement .aluB := by unfold Statement; decide
theorem aluInvalid21 : Statement .aluInvalid21 := by unfold Statement; decide
theorem aluInvalid22 : Statement .aluInvalid22 := by unfold Statement; decide
theorem aluInvalid23 : Statement .aluInvalid23 := by unfold Statement; decide
theorem aluH : Statement .aluH := by unfold Statement; decide
theorem aluInvalid25 : Statement .aluInvalid25 := by unfold Statement; decide
theorem aluNotH : Statement .aluNotH := by unfold Statement; decide
theorem aluInvalid27 : Statement .aluInvalid27 := by unfold Statement; decide
theorem aluOr : Statement .aluOr := by unfold Statement; decide
theorem aluInvalid29 : Statement .aluInvalid29 := by unfold Statement; decide
theorem aluInvalid30 : Statement .aluInvalid30 := by unfold Statement; decide
theorem aluInvalid31 : Statement .aluInvalid31 := by unfold Statement; decide
theorem aluInvalid32 : Statement .aluInvalid32 := by unfold Statement; decide
theorem aluInvalid33 : Statement .aluInvalid33 := by unfold Statement; decide
theorem aluInvalid34 : Statement .aluInvalid34 := by unfold Statement; decide
theorem aluInvalid35 : Statement .aluInvalid35 := by unfold Statement; decide
theorem aluInvalid36 : Statement .aluInvalid36 := by unfold Statement; decide
theorem aluInvalid37 : Statement .aluInvalid37 := by unfold Statement; decide
theorem aluInvalid38 : Statement .aluInvalid38 := by unfold Statement; decide
theorem aluInvalid39 : Statement .aluInvalid39 := by unfold Statement; decide
theorem aluInvalid40 : Statement .aluInvalid40 := by unfold Statement; decide
theorem aluInvalid41 : Statement .aluInvalid41 := by unfold Statement; decide
theorem aluInvalid42 : Statement .aluInvalid42 := by unfold Statement; decide
theorem aluInvalid43 : Statement .aluInvalid43 := by unfold Statement; decide
theorem aluNotB : Statement .aluNotB := by unfold Statement; decide
theorem aluInvalid45 : Statement .aluInvalid45 := by unfold Statement; decide
theorem aluInvalid46 : Statement .aluInvalid46 := by unfold Statement; decide
theorem aluInvalid47 : Statement .aluInvalid47 := by unfold Statement; decide
theorem aluInvalid48 : Statement .aluInvalid48 := by unfold Statement; decide
theorem aluInvalid49 : Statement .aluInvalid49 := by unfold Statement; decide
theorem aluInvalid50 : Statement .aluInvalid50 := by unfold Statement; decide
theorem aluInvalid51 : Statement .aluInvalid51 := by unfold Statement; decide
theorem aluInvalid52 : Statement .aluInvalid52 := by unfold Statement; decide
theorem aluIncB : Statement .aluIncB := by unfold Statement; decide
theorem aluDecB : Statement .aluDecB := by unfold Statement; decide
theorem aluInvalid55 : Statement .aluInvalid55 := by unfold Statement; decide
theorem aluInvalid56 : Statement .aluInvalid56 := by unfold Statement; decide
theorem aluIncH : Statement .aluIncH := by unfold Statement; decide
theorem aluInvalid58 : Statement .aluInvalid58 := by unfold Statement; decide
theorem aluNegH : Statement .aluNegH := by unfold Statement; decide
theorem aluAdd : Statement .aluAdd := by unfold Statement; decide
theorem aluAddInc : Statement .aluAddInc := by unfold Statement; decide
theorem aluInvalid62 : Statement .aluInvalid62 := by unfold Statement; decide
theorem aluSub : Statement .aluSub := by unfold Statement; decide
theorem shiftNone : Statement .shiftNone := by unfold Statement; decide
theorem shiftSll8 : Statement .shiftSll8 := by unfold Statement; decide
theorem shiftSrl1 : Statement .shiftSrl1 := by unfold Statement; decide
theorem shiftInvalid3 : Statement .shiftInvalid3 := by unfold Statement; decide
theorem cMar : Statement .cMar := by unfold Statement; decide
theorem cMdr : Statement .cMdr := by unfold Statement; decide
theorem cPc : Statement .cPc := by unfold Statement; decide
theorem cSp : Statement .cSp := by unfold Statement; decide
theorem cLv : Statement .cLv := by unfold Statement; decide
theorem cCpp : Statement .cCpp := by unfold Statement; decide
theorem cTos : Statement .cTos := by unfold Statement; decide
theorem cOpc : Statement .cOpc := by unfold Statement; decide
theorem cH : Statement .cH := by unfold Statement; decide
theorem memFetch : Statement .memFetch := by unfold Statement; decide
theorem memRd : Statement .memRd := by unfold Statement; decide
theorem memWr : Statement .memWr := by unfold Statement; decide
theorem mpcNext (base : Slot) : Statement (.mpcNext base) := by
  have h : (unpack (rowMatch (.mpcNext base))).mpcNext = base := unpack_rowMatch_mpcNext base
  have : .mpcNext (unpack (rowMatch (.mpcNext base))).mpcNext ∈ decode (rowMatch (.mpcNext base)) :=
    mpcNext_mem_decode _
  rwa [h] at this
theorem jumpJamn : Statement .jumpJamn := by unfold Statement; decide
theorem jumpJamz : Statement .jumpJamz := by unfold Statement; decide
theorem jumpJmpc : Statement .jumpJmpc := by unfold Statement; decide

end Sys2Proof.Laws.RowOfWord
end

