-- ==== Sys2Proof/Laws/Rows.lean ====
section
/-! SUPPORT. Laws of the rows of a field as a function of the field's code: everything a B_SEL, ALU_OP or SHIFT row does,
and what running the rows of the bit fields does. -/

namespace Sys2Proof.Machine

/-- Appending an optional event, with the choice inside or outside. -/
theorem append_ite {p : Prop} [Decidable p] (l : List Event) (e : Event) :
    (l ++ if p then [e] else []) = if p then l ++ [e] else l := by
  split
  · rfl
  · exact List.append_nil l

theorem append_ite_not {p : Prop} [Decidable p] (l : List Event) (e : Event) :
    (l ++ if p then [] else [e]) = if p then l else l ++ [e] := by
  split
  · exact List.append_nil l
  · rfl

/-- Everything a B_SEL row does (41_bbus_router.md). -/
theorem exec_bRow (c : BitVec 4) (s : State) : exec (bRow c) s = .next { s with
    busB := busValue c s
    trace := s.trace ++ if 9 ≤ c.toNat then [.badBsel c s.mpc] else [] } := by
  rw [append_ite]
  have hlt : c.toNat < 16 := c.isLt
  obtain ⟨n, hn⟩ : ∃ n, c.toNat = n := ⟨_, rfl⟩
  have hc : c = BitVec.ofNat 4 n := by simp [← hn]
  rw [hn] at hlt
  subst hc
  interval_cases n <;> rfl

/-- Everything an ALU_OP row does (42_alu_shifter.md R79, R95, R96). -/
theorem exec_aluRow (c : BitVec 6) (s : State) : exec (aluRow c) s = .next { s with
    aluR := aluValue c s.busB s
    z := aluValue c s.busB s == 0#32
    n := aluValue c s.busB s != 0#32
    trace := s.trace ++ if c.toNat ∈ validAluCodes then [] else [.badAlu c s.mpc] } := by
  rw [append_ite_not]
  have hlt : c.toNat < 64 := c.isLt
  obtain ⟨n, hn⟩ : ∃ n, c.toNat = n := ⟨_, rfl⟩
  have hc : c = BitVec.ofNat 6 n := by simp [← hn]
  rw [hn] at hlt
  subst hc
  interval_cases n <;> rfl

/-- Everything a SHIFT row does (42_alu_shifter.md R97, R101, R102). -/
theorem exec_shiftRow (c : BitVec 2) (s : State) : exec (shiftRow c) s = .next { s with
    cl := shiftValue c s.aluR
    trace := s.trace ++ if c = 3#2 then [.badShift c s.mpc] else [] } := by
  rw [append_ite]
  have hlt : c.toNat < 4 := c.isLt
  obtain ⟨n, hn⟩ : ∃ n, c.toNat = n := ⟨_, rfl⟩
  have hc : c = BitVec.ofNat 2 n := by simp [← hn]
  rw [hn] at hlt
  subst hc
  interval_cases n <;> rfl

theorem exec_memFetch {s : State} (h : inBounds s = true) : exec .memFetch s = .next (fetchByte s) := by
  simp [exec, execMemFetch, memoryAccess, h]

theorem exec_memRd {s : State} (h : inBounds s = true) : exec .memRd s = .next (loadWord s) := by
  simp [exec, execMemRd, memoryAccess, h]

theorem exec_memWr {s : State} (h : inBounds s = true) : exec .memWr s = .next (storeWord s) := by
  simp [exec, execMemWr, memoryAccess, h]

/-- Running the MEM rows of a field where the bounds check passes (44_memory_unit.md R114, R119). -/
theorem runRows_memRows {s : State} (bits : BitVec 3) (h : inBounds s = true) : runRows (memRows bits) s = .next { s with
    mbr := if bits.getLsbD 0 then s.mem.read s.pc.toNat else s.mbr
    mdr := if bits.getLsbD 1 then s.mem.readWord (wordAddr s) else s.mdr
    mem := if bits.getLsbD 2 then
      s.mem.writeWord (wordAddr s) (if bits.getLsbD 1 then s.mem.readWord (wordAddr s) else s.mdr) else s.mem } := by
  unfold memRows
  generalize bits.getLsbD 0 = b0, bits.getLsbD 1 = b1, bits.getLsbD 2 = b2
  cases b0 <;> cases b1 <;> cases b2 <;>
    simp [rowIf, runRows_cons, exec_memFetch, exec_memRd, exec_memWr, h] <;> rfl

/-- Running the MEM rows of a field after a failed bounds check: nothing more happens (44_memory_unit.md R115, R120). -/
theorem runRows_memRows_fault {s : State} (bits : BitVec 3) (h : inBounds s = false) (hp : s.faultPending = true) :
    runRows (memRows bits) s = .next s := by
  have hf : exec .memFetch s = .next s := by simp [exec, execMemFetch, memoryAccess, h, raiseBounds_of_pending hp]
  have hr : exec .memRd s = .next s := by simp [exec, execMemRd, memoryAccess, h, raiseBounds_of_pending hp]
  have hw : exec .memWr s = .next s := by simp [exec, execMemWr, memoryAccess, h, raiseBounds_of_pending hp]
  unfold memRows
  generalize bits.getLsbD 0 = b0, bits.getLsbD 1 = b1, bits.getLsbD 2 = b2
  cases b0 <;> cases b1 <;> cases b2 <;> simp [rowIf, runRows_cons, hf, hr, hw]

/-- Running the NEXT row and the JUMP rows changes MPC only. -/
theorem runRows_nextRows_mpcOnly (f : Fields) (s : State) :
    ∃ m, runRows (nextRows f) s = .next { s with mpc := m } := by
  unfold nextRows jumpRows
  generalize f.jump.getLsbD 0 = b0, f.jump.getLsbD 1 = b1, f.jump.getLsbD 2 = b2
  cases b0 <;> cases b1 <;> cases b2 <;> exact ⟨_, rfl⟩

/-- Everything the end of a cycle does (46_cycle_engine.md R132; 10_state.md R32). -/
theorem endCycle_eq (slot : Slot) (s : State) : endCycle slot s = { s with
    status := if s.mbr = Config.haltSentinel then .haltedNormal
      else if !pcOk s || s.faultPending then .haltedFault else s.status
    trace := s.trace ++ if s.mbr = Config.haltSentinel then [.haltSentinel s.pc slot] else []
    busB := 0#32, aluR := 0#32, faultPending := false } := by
  unfold endCycle terminationCheck
  split
  · rfl
  · split <;> simp [clearTransients]

end Sys2Proof.Machine
end

