-- ==== Sys2Proof/Tests/Slice0.lean ====
section
/-! SUPPORT. The model's own tests. Every expected value comes from spec/95_test_vectors.md (the vector's name stands in
the test's comment) or is worked out by hand from the rule named there. The `witness_` theorems show that the hypotheses
of a statement are met, at the boundary values of each clause. -/

namespace Sys2Proof.Tests

open Sys2Proof.Machine

-- One test after another: many at once would each hold a thread.
set_option Elab.async false

/-! ### Well-formedness: one ill-formed microinstruction for each check -/

theorem test_wellFormed_accepts : wellFormed [.bPc, .aluB, .shiftNone, .cPc, .mpcNext 0#9] = true := by decide

/-- Out of step order: the write-back before the shift. -/
theorem test_wellFormed_refuses_order : wellFormed [.bPc, .aluB, .cPc, .shiftNone, .mpcNext 0#9] = false := by decide

/-- Two rows of one code field. -/
theorem test_wellFormed_refuses_two : wellFormed [.bPc, .bSp, .aluB, .shiftNone, .mpcNext 0#9] = false := by decide

/-- No B_SEL row. -/
theorem test_wellFormed_refuses_no_b : wellFormed [.aluB, .shiftNone, .mpcNext 0#9] = false := by decide

/-- No ALU_OP row. -/
theorem test_wellFormed_refuses_no_alu : wellFormed [.bPc, .shiftNone, .mpcNext 0#9] = false := by decide

/-- No SHIFT row. -/
theorem test_wellFormed_refuses_no_shift : wellFormed [.bPc, .aluB, .mpcNext 0#9] = false := by decide

/-- No NEXT row. -/
theorem test_wellFormed_refuses_no_next : wellFormed [.bPc, .aluB, .shiftNone] = false := by decide

/-! ### Decoding: words written out from the field positions of 30_encoding.md R52, R53 -/

/-- S1: the fields of 0x8D5E2F0A3. -/
theorem test_unpack_S1 : unpack 0x8D5E2F0A3#36 =
    { bSel := 3, mem := 0b010, cMask := 0b111100001, aluOp := 34, shift := 3, jump := 0b101, mpcNext := 0x11A } := by
  decide

/-- S1: the fields of 0x123456789. -/
theorem test_unpack_S1_second : unpack 0x123456789#36 =
    { bSel := 9, mem := 0b000, cMask := 0b011001111, aluOp := 5, shift := 1, jump := 0b011, mpcNext := 0x024 } := by
  decide

/-- 2.1: every C, MEM and datapath choice of one long word. -/
theorem test_decode_long : decode 0xFF8BCFFF8#36 = [.bOpc, .aluAdd, .shiftSrl1, .cMar, .cMdr, .cPc, .cSp, .cLv, .cCpp, .cTos,
    .cOpc, .cH, .memFetch, .memRd, .memWr, .mpcNext 0x1FF#9] := by decide

/-- 2.1: every bit set. -/
theorem test_decode_ones : decode 0xFFFFFFFFF#36 = [.bInvalid15, .aluSub, .shiftInvalid3, .cMar, .cMdr, .cPc, .cSp, .cLv,
    .cCpp, .cTos, .cOpc, .cH, .memFetch, .memRd, .memWr, .mpcNext 0x1FF#9, .jumpJamn, .jumpJamz, .jumpJmpc] := by decide

/-- 2.1: one B_SEL code per family of source, the code in bits 3:0. -/
theorem test_decode_b : (([0, 1, 2, 3, 4, 5, 6, 7, 8, 9, 12, 15] : List Nat).map fun k => bRow (BitVec.ofNat 4 k)) =
    [.bMdr, .bPc, .bMbr, .bMbru, .bSp, .bLv, .bCpp, .bTos, .bOpc, .bInvalid9, .bInvalid12, .bInvalid15] := by decide

/-- 30_encoding.md R59: the 15 valid codes, in bits 21:16. -/
theorem test_decode_alu :
    (([12, 17, 18, 20, 24, 26, 28, 44, 53, 54, 57, 59, 60, 61, 63] : List Nat).map fun k =>
      aluRow (unpack (BitVec.ofNat 36 (k * 0x10000))).aluOp) =
    [.aluAnd, .aluOne, .aluMinus1, .aluB, .aluH, .aluNotH, .aluOr, .aluNotB, .aluIncB, .aluDecB, .aluIncH, .aluNegH, .aluAdd,
      .aluAddInc, .aluSub] := by decide

/-- 30_encoding.md R59: the ends of the ranges of invalid codes. -/
theorem test_decode_alu_invalid :
    (([0, 11, 13, 16, 19, 21, 23, 25, 27, 29, 43, 45, 52, 55, 56, 58, 62] : List Nat).map fun k =>
      aluRow (unpack (BitVec.ofNat 36 (k * 0x10000))).aluOp) =
    [.aluInvalid0, .aluInvalid11, .aluInvalid13, .aluInvalid16, .aluInvalid19, .aluInvalid21, .aluInvalid23, .aluInvalid25,
      .aluInvalid27, .aluInvalid29, .aluInvalid43, .aluInvalid45, .aluInvalid52, .aluInvalid55, .aluInvalid56, .aluInvalid58,
      .aluInvalid62] := by decide

/-- 70_reset_and_hazards.md R154: a record read from its bytes, S7's, the first byte the least significant. -/
theorem test_decodeRecord_S7 : decodeRecord [0x01#8, 0x02#8, 0x14#8, 0#8, 0#8, 0#8, 0#8, 0#8, 0xEE#8] =
    .ok ([.bPc, .aluB, .shiftNone, .cPc, .mpcNext 0#9], [0xEE#8]) := by rfl

/-- Seven bytes are no record. -/
theorem test_decodeRecord_short : decodeRecord [0#8, 0#8, 0#8, 0#8, 0#8, 0#8, 0#8] = .error .shortRecord := by rfl

/-- The host's question about a row, on words of the table (log entry 5). -/
theorem test_decodeTableWord :
    decodeTableWord 8 0x8 = some .bOpc ∧ decodeTableWord 24 0x3C0000 = some .aluAdd ∧
    decodeTableWord 24 0xC00000 = some .shiftInvalid3 ∧ decodeTableWord 16 0x8000 = some .cH ∧
    decodeTableWord 8 0x40 = some .memWr ∧ decodeTableWord 32 0x4000000 = some .jumpJmpc := by decide +kernel

/-! ### One step -/

/-- The state that one step from `s` gives when the word `w` stands in the slot of MPC. -/
def after (w : MicroWord) (s : State) : State :=
  match step (s.withFetchWord 36 w.toNat) with
  | .next t => t
  | .fault _ => s
  | .refused _ => s

/-- The registers of 2.2. -/
def busState : State :=
  { State.reset with
    mdr := 0x12345678#32, pc := 0x401#32, mbr := 0x80#8, sp := 0x1000#32, lv := 0xFFFFFFFF#32, cpp := 0x40#32
    tos := 0x80000000#32, opc := 7#32 }

/-- 2.2, S2: what each valid selector puts on the B bus, seen through ALU 20 into H. -/
theorem test_bus_valid :
    (after 0x000148000#36 busState).h = 0x12345678#32 ∧ (after 0x000148001#36 busState).h = 0x401#32 ∧
    (after 0x000148002#36 busState).h = 0xFFFFFF80#32 ∧ (after 0x000148003#36 busState).h = 0x80#32 ∧
    (after 0x000148004#36 busState).h = 0x1000#32 ∧ (after 0x000148005#36 busState).h = 0xFFFFFFFF#32 ∧
    (after 0x000148006#36 busState).h = 0x40#32 ∧ (after 0x000148007#36 busState).h = 0x80000000#32 ∧
    (after 0x000148008#36 busState).h = 7#32 ∧ (after 0x000148002#36 { busState with mbr := 0x7F#8 }).h = 0x7F#32 := by
  decide +kernel

/-- 2.2: the invalid selectors, each with its own code in the warning. -/
theorem test_bus_invalid : ∀ k : Fin 7,
    (after (0x000148009#36 + BitVec.ofNat 36 k) busState).h = 0xFFFFFFFF#32 ∧
    (after (0x000148009#36 + BitVec.ofNat 36 k) busState).trace = [.badBsel (9#4 + BitVec.ofNat 4 k) 0#9] := by
  decide +kernel

/-- 2.2: an invalid selector warns even where the ALU ignores B. -/
theorem test_bus_invalid_unused :
    (after 0x00011800C#36 busState).h = 1#32 ∧ (after 0x00011800C#36 busState).trace = [.badBsel 12#4 0#9] := by
  decide +kernel

/-- OPC, N and Z after ALU code `k` with H and B as given, the set-up of 2.3. -/
def aluOut (k : Nat) (h b : Word) : Word × Bool × Bool :=
  let t := after (BitVec.ofNat 36 (k * 0x10000 + 0x4004)) { State.reset with h := h, sp := b }
  (t.opc, t.n, t.z)

/-- 2.3: the logic and constant codes. -/
theorem test_alu_logic :
    aluOut 12 0xFF00FF00#32 0x0F0F0F0F#32 = (0x0F000F00#32, true, false) ∧
    aluOut 17 0x55#32 0x66#32 = (1#32, true, false) ∧ aluOut 18 0#32 0#32 = (0xFFFFFFFF#32, true, false) ∧
    aluOut 20 0x99#32 0#32 = (0#32, false, true) ∧ aluOut 24 0x10#32 5#32 = (0x10#32, true, false) ∧
    aluOut 26 0xFFFF#32 0#32 = (0xFFFF0000#32, true, false) ∧ aluOut 28 0xF0#32 0x0F#32 = (0xFF#32, true, false) ∧
    aluOut 44 0#32 0xFFFFFFFF#32 = (0#32, false, true) := by decide +kernel

/-- 2.3, S3: the arithmetic codes, with their wraps. -/
theorem test_alu_arithmetic :
    aluOut 53 0#32 0xFFFFFFFF#32 = (0#32, false, true) ∧ aluOut 53 0#32 0#32 = (1#32, true, false) ∧
    aluOut 54 0#32 0#32 = (0xFFFFFFFF#32, true, false) ∧ aluOut 54 0#32 1#32 = (0#32, false, true) ∧
    aluOut 57 9#32 0#32 = (0xA#32, true, false) ∧ aluOut 57 0xFFFFFFFF#32 0#32 = (0#32, false, true) ∧
    aluOut 59 5#32 0#32 = (0xFFFFFFFB#32, true, false) ∧ aluOut 59 0x80000000#32 0#32 = (0x80000000#32, true, false) ∧
    aluOut 60 5#32 5#32 = (0xA#32, true, false) ∧ aluOut 60 0x80000000#32 0x80000000#32 = (0#32, false, true) ∧
    aluOut 61 2#32 3#32 = (6#32, true, false) ∧ aluOut 61 0xFFFFFFFF#32 0xFFFFFFFF#32 = (0xFFFFFFFF#32, true, false) ∧
    aluOut 63 3#32 0xA#32 = (7#32, true, false) ∧ aluOut 63 1#32 0#32 = (0xFFFFFFFF#32, true, false) := by decide +kernel

/-- 2.3: an invalid ALU code takes CL, and this cycle's shift applies to it. -/
theorem test_alu_invalid :
    (after 0x000808000#36 { State.reset with cl := 0x100#32 }).h = 0x80#32 ∧
    (after 0x000808000#36 { State.reset with cl := 0x100#32 }).cl = 0x80#32 ∧
    (after 0x000808000#36 { State.reset with cl := 0x100#32 }).n = true ∧
    (after 0x0007E8000#36 { State.reset with cl := 0xFFFFFFFF#32 }).h = 0xFFFFFF00#32 ∧
    (after 0x000108000#36 { State.reset with cl := 0x12345678#32 }).trace = [.badAlu 16#6 0#9] ∧
    (after 0x000F28000#36 { State.reset with cl := 7#32 }).trace = [.badAlu 50#6 0#9, .badShift 3#2 0#9] := by
  decide +kernel

/-- Every invalid ALU code warns with its own code (42_alu_shifter.md R95). -/
theorem test_alu_invalid_codes : ∀ k : Fin 64, k.val ∉ validAluCodes →
    (after (BitVec.ofNat 36 (k.val * 0x10000)) State.reset).trace = [.badAlu (BitVec.ofNat 6 k.val) 0#9] := by
  decide +kernel

/-- H after SHIFT code `k` of r, the set-up of 2.4. -/
def shiftOutH (k : Nat) (r : Word) : Word :=
  (after (BitVec.ofNat 36 (k * 0x400000 + 0x148004)) { State.reset with sp := r }).h

/-- 2.4: the four codes, and r[31:24] lost, and the right shift logical. -/
theorem test_shift :
    shiftOutH 0 0x12345678#32 = 0x12345678#32 ∧ shiftOutH 1 0x12345678#32 = 0x34567800#32 ∧
    shiftOutH 2 0x80000001#32 = 0x40000000#32 ∧ shiftOutH 3 0x12345678#32 = 0x12345678#32 ∧
    shiftOutH 1 0x01000000#32 = 0#32 := by decide +kernel

/-- 2.4: c is 0 and yet Z is 0: the flags describe r. -/
theorem test_shift_flags :
    (after 0x000948004#36 { State.reset with sp := 1#32 }).h = 0#32 ∧
    (after 0x000948004#36 { State.reset with sp := 1#32 }).z = false ∧
    (after 0x000948004#36 { State.reset with sp := 1#32 }).n = true := by decide +kernel

/-- 2.5, S4: one destination each, and two at once. -/
theorem test_writeBack :
    (after 0x000140084#36 { State.reset with sp := 7#32 }).mar = 7#32 ∧
    (after 0x000140104#36 { State.reset with sp := 7#32 }).mdr = 7#32 ∧
    (after 0x000140204#36 { State.reset with sp := 7#32 }).pc = 7#32 ∧
    (after 0x000140400#36 { State.reset with mdr := 7#32 }).sp = 7#32 ∧
    (after 0x000140804#36 { State.reset with sp := 7#32 }).lv = 7#32 ∧
    (after 0x000141004#36 { State.reset with sp := 7#32 }).cpp = 7#32 ∧
    (after 0x000142004#36 { State.reset with sp := 7#32 }).tos = 7#32 ∧
    (after 0x000144004#36 { State.reset with sp := 7#32 }).opc = 7#32 ∧
    (after 0x000148004#36 { State.reset with sp := 7#32 }).h = 7#32 ∧
    (after 0x000140284#36 { State.reset with sp := 0x10#32 }).mar = 0x10#32 ∧
    (after 0x000140284#36 { State.reset with sp := 0x10#32 }).pc = 0x10#32 := by decide +kernel

/-- 2.5: `H = TOS + 1` with H = 0x100 and TOS = 5. -/
theorem test_writeBack_source :
    (after 0x000358007#36 { State.reset with h := 0x100#32, tos := 5#32 }).h = 6#32 := by decide +kernel

/-- M2: a fetch at the PC of the same cycle. -/
theorem test_fetch_M2 :
    (after 0x000350211#36 { State.reset with pc := 0x401#32, mem := [(0x402, 0x36#8)] }).mbr = 0x36#8 ∧
    (after 0x000350211#36 { State.reset with pc := 0x401#32, mem := [(0x402, 0x36#8)] }).pc = 0x402#32 := by decide +kernel

/-- M12: a fetch at the last byte. -/
theorem test_fetch_M12 :
    (after 0x000140011#36 { State.reset with pc := 0x98967F#32, mem := [(0x98967F, 0x42#8)] }).mbr = 0x42#8 ∧
    (after 0x000140011#36 { State.reset with pc := 0x98967F#32, mem := [(0x98967F, 0x42#8)] }).status = .running := by
  decide +kernel

/-- M4: byte lanes of a word read. -/
theorem test_rd_M4 :
    (after 0x000140021#36 { State.reset with
      mar := 0x100#32, mem := [(0x400, 0x11#8), (0x401, 0x22#8), (0x402, 0x33#8), (0x403, 0x44#8)] }).mdr =
      0x44332211#32 := by decide +kernel

/-- M8: a word read overrides the write-back of MDR. -/
theorem test_rd_M8 :
    (after 0x000120120#36 { State.reset with mar := 1#32, mem := [(4, 5#8)] }).mdr = 5#32 := by decide +kernel

/-- M5: a word write, lowest byte first. -/
theorem test_wr_M5 :
    (after 0x000140041#36 { State.reset with mar := 1#32, mdr := 0x44332211#32 }).mem =
      [(4, 0x11#8), (5, 0x22#8), (6, 0x33#8), (7, 0x44#8)] := by decide +kernel

/-- M11: all three requests: fetch, then read, then write. -/
theorem test_wr_M11 :
    (after 0x000140071#36 { State.reset with
      pc := 4#32, mar := 1#32, mdr := 0x99#32, mem := [(4, 0x10#8), (5, 0x20#8)] }).mdr = 0x2010#32 ∧
    (after 0x000140071#36 { State.reset with
      pc := 4#32, mar := 1#32, mdr := 0x99#32, mem := [(4, 0x10#8), (5, 0x20#8)] }).mbr = 0x10#8 ∧
    (after 0x000140071#36 { State.reset with
      pc := 4#32, mar := 1#32, mdr := 0x99#32, mem := [(4, 0x10#8), (5, 0x20#8)] }).mem = [(4, 0x10#8), (5, 0x20#8)] := by
  decide +kernel

/-- M14, M17: a fault with no request, and 4 * MAR = 2^32 not wrapped. -/
theorem test_bounds_M14_M17 :
    (after 0x000140001#36 { State.reset with pc := 0x989680#32 }).status = .haltedFault ∧
    (after 0x000140001#36 { State.reset with pc := 0x989680#32 }).trace =
      [.bounds false true 0x989680#32 0#32 0#9] ∧
    (after 0x000140021#36 { State.reset with mar := 0x40000000#32, mem := [(0, 0x77#8)] }).trace =
      [.bounds true false 0#32 0x40000000#32 0#9] ∧
    (after 0x000140021#36 { State.reset with mar := 0x40000000#32, mem := [(0, 0x77#8)] }).mdr = 0#32 := by decide +kernel

/-- S5, M18, M19: the read is not performed; one event for both causes; the write-back stays and no byte is stored. -/
theorem test_bounds_S5_M18_M19 :
    (after 0x0001800A0#36 { State.reset with h := 0x2625A0#32, mdr := 0x11111111#32 }).mdr = 0x11111111#32 ∧
    (after 0x000140011#36 { State.reset with pc := 0xFFFFFFFF#32, mar := 0xFFFFFFFF#32 }).trace =
      [.bounds false false 0xFFFFFFFF#32 0xFFFFFFFF#32 0#9] ∧
    (after 0x0001280C0#36 { State.reset with mdr := 5#32 }).h = 0xFFFFFFFF#32 ∧
    (after 0x0001280C0#36 { State.reset with mdr := 5#32 }).mem = [] := by decide +kernel

/-- MPC after a word with JUMP and MPC_next as given and ALU 20 of SP, the set-up of 2.7. -/
def mpcOut (jump next : Nat) (r : Word) (mbr : Byte) : Slot :=
  (after (BitVec.ofNat 36 (next * 0x8000000 + jump * 0x1000000 + 0x140004)) { State.reset with sp := r, mbr := mbr }).mpc

/-- 2.7: the conditional contributions, and both at once. -/
theorem test_jump_conditions :
    mpcOut 0 0x010 2#32 5#8 = 0x010#9 ∧ mpcOut 1 0x010 0#32 5#8 = 0x010#9 ∧ mpcOut 1 0x010 2#32 5#8 = 0x110#9 ∧
    mpcOut 2 0x010 0#32 5#8 = 0x110#9 ∧ mpcOut 2 0x010 2#32 5#8 = 0x010#9 ∧ mpcOut 3 0x010 0#32 5#8 = 0x110#9 ∧
    mpcOut 3 0x010 2#32 5#8 = 0x110#9 ∧ mpcOut 0 0x1FF 0#32 0#8 = 0x1FF#9 := by decide +kernel

/-- S6, 2.7: MBR is ORed in, not added; and the byte fetched in the same cycle is the one used. -/
theorem test_jump_mbr :
    mpcOut 4 0x010 0#32 5#8 = 0x015#9 ∧ mpcOut 4 0x011 0#32 1#8 = 0x011#9 ∧ mpcOut 6 0x010 0#32 5#8 = 0x115#9 ∧
    (after 0x104350211#36 { State.reset with mbr := 5#8, mem := [(1, 7#8)] }).mpc = 0x027#9 := by decide +kernel

/-- S7: the end-to-end no-op keeps running, with Z set and no register changed. -/
theorem test_step_S7 :
    (after 0x000140201#36 State.reset).z = true ∧ (after 0x000140201#36 State.reset).n = false ∧
    (after 0x000140201#36 State.reset).pc = 0#32 ∧ (after 0x000140201#36 State.reset).mbr = 0#8 ∧
    (after 0x000140201#36 State.reset).status = .running ∧ (after 0x000140201#36 State.reset).trace = [] := by
  decide +kernel

/-- S8: the halting cycle keeps its write-back and its fetch. -/
theorem test_step_S8 :
    (after 0x000350211#36 { State.reset with mem := [(1, 0xFF#8)] }).status = .haltedNormal ∧
    (after 0x000350211#36 { State.reset with mem := [(1, 0xFF#8)] }).pc = 1#32 ∧
    (after 0x000350211#36 { State.reset with mem := [(1, 0xFF#8)] }).trace = [.haltSentinel 1#32 0#9] := by decide +kernel

/-- E1: three warnings in step order, with the slot of the word. -/
theorem test_step_E1 :
    (after 0x028C08009#36 { State.reset with cl := 0x30#32, mpc := 3#9 }).trace =
      [.badBsel 9#4 3#9, .badAlu 0#6 3#9, .badShift 3#2 3#9] ∧
    (after 0x028C08009#36 { State.reset with cl := 0x30#32, mpc := 3#9 }).mpc = 5#9 := by decide +kernel

/-- E2, E3: a warning before the halt, and before the fault. -/
theorem test_step_E2_E3 :
    (after 0x000150011#36 { State.reset with mem := [(0, 0xFF#8)] }).trace = [.badAlu 21#6 0#9, .haltSentinel 0#32 0#9] ∧
    (after 0x00012020A#36 State.reset).trace = [.badBsel 10#4 0#9, .bounds false true 0xFFFFFFFF#32 0#32 0#9] := by
  decide +kernel

/-- E4: a fault leaves the sentinel byte unfetched. -/
theorem test_step_E4 :
    (after 0x000120090#36 { State.reset with pc := 3#32, mem := [(3, 0xFF#8)] }).status = .haltedFault ∧
    (after 0x000120090#36 { State.reset with pc := 3#32, mem := [(3, 0xFF#8)] }).mbr = 0#8 := by decide +kernel

/-- E6: the all-zero word. -/
theorem test_step_E6 :
    (after 0#36 { State.reset with cl := 0x44#32, h := 9#32, mpc := 0x055#9 }).trace = [.badAlu 0#6 0x055#9] ∧
    (after 0#36 { State.reset with cl := 0x44#32, h := 9#32, mpc := 0x055#9 }).mpc = 0#9 ∧
    (after 0#36 { State.reset with cl := 0x44#32, h := 9#32, mpc := 0x055#9 }).n = true := by decide +kernel

/-- 46_cycle_engine.md R134: a halted machine has no step. -/
theorem test_step_halted :
    step { State.reset with status := .haltedNormal } = .fault .noStepHaltedNormal ∧
    step { State.reset with status := .haltedFault } = .fault .noStepHaltedFault := ⟨rfl, rfl⟩

/-! ### Memory -/

/-- Writing the value that an unlisted address reads as removes the entry. -/
theorem test_memory_canonical :
    Memory.write [(4, 1#8), (9, 2#8)] 4 0#8 = [(9, 2#8)] ∧ Memory.write [(4, 1#8), (9, 2#8)] 6 3#8 =
      [(4, 1#8), (6, 3#8), (9, 2#8)] ∧ Memory.wf [(9, 2#8), (4, 1#8)] = false ∧ Memory.wf [(4, 0#8)] = false := by decide

/-! ### Launch -/

/-- The program image of L6. -/
def imageL6 : List Byte :=
  [0x17#8, 0#8, 0#8, 0#8] ++ ([0xAA#8] ++ List.replicate 18 0#8 ++ [0xBB#8]) ++ [1#8, 2#8, 3#8]

/-- L6, L7: the block, the body at ORIGIN, and trailing bytes ignored. -/
theorem test_load_L6_L7 :
    loadProgram Config.reference imageL6 =
      .ok [(0, 0xAA#8), (0x13, 0xBB#8), (0x401, 1#8), (0x402, 2#8), (0x403, 3#8)] ∧
    loadProgram Config.reference (imageL6 ++ [0xEE#8, 0xEE#8]) = loadProgram Config.reference imageL6 := by
  constructor <;> rfl

/-- L8 to L13: the load errors in their order. -/
theorem test_load_errors :
    loadProgram Config.reference [0x14#8, 0#8] = .error (.progShort 2 4) ∧
    loadProgram Config.reference [0x81#8, 0x96#8, 0x98#8, 0#8] = .error (.progTooLarge 10000001) ∧
    loadProgram Config.reference ([0x0A#8, 0#8, 0#8, 0#8] ++ List.replicate 20 0#8) = .error (.progSizeSmall 10) ∧
    loadProgram Config.reference [0x80#8, 0x96#8, 0x98#8, 0#8] = .error (.progBodyOverflow 10000000) ∧
    loadProgram Config.reference ([0x14#8, 0#8, 0#8, 0#8] ++ List.replicate 10 0#8) = .error (.progShort 10 20) ∧
    loadProgram Config.reference ([0x1E#8, 0#8, 0#8, 0#8] ++ List.replicate 24 0#8) = .error (.progShort 4 10) := by
  refine ⟨rfl, rfl, rfl, rfl, rfl, rfl⟩

/-- L3, L4: bits 63:36 of a record dropped; 12 bytes are no whole records. -/
theorem test_load_control_store :
    (loadRecords (Vector.replicate 512 0#36) 0 (List.replicate 8 0xFF#8))[0] = 0xFFFFFFFFF#36 ∧
    loadControlStore (List.replicate 12 0#8) = .error (.csFormat 12) := by
  constructor
  · decide +kernel
  · rfl

/-! ### Witnesses: the hypotheses of the statements are met -/

/-- The reset state with a word in slot 0. -/
def withWord (w : Nat) : State := State.reset.withFetchWord 36 w

/-- DecodeEncodeRoundTrip: whole microinstructions, with the operand at both ends. -/
theorem witness_wellFormed :
    wellFormed [.bOpc, .aluAdd, .shiftSrl1, .cH, .memWr, .mpcNext 0x1FF#9, .jumpJmpc] = true ∧
    wellFormed [.bMdr, .aluInvalid0, .shiftNone, .mpcNext 0#9] = true := by decide

/-- TableWordsReadTheirRow: rows that set a bit. -/
theorem witness_rowMatch : rowMatch (.mpcNext 0x1FF#9) ≠ 0#36 ∧ rowMatch .bPc ≠ 0#36 := by decide

/-- The statements about a running machine: StepRunsTheDecodedMicroinstruction, StepIsTheNineStepCycle and every
statement about a cycle whose only hypothesis is the status. -/
theorem witness_running : State.reset.status = .running := rfl

/-- StepExistsExactlyWhileRunning: all three statuses. -/
theorem witness_statuses :
    State.reset.status = .running ∧ ({ State.reset with status := .haltedNormal } : State).status = .haltedNormal ∧
    ({ State.reset with status := .haltedFault } : State).status = .haltedFault := ⟨rfl, rfl, rfl⟩

/-- FetchWordIsWhatTheNextStepRuns: a slot other than MPC's. -/
theorem witness_other_slot : (1#9 : Slot) ≠ State.reset.mpc := by decide

/-- InvalidSelectorsDriveAllOnes: the ends of the range, and a running cycle with such a code. -/
theorem witness_invalid_selector :
    9 ≤ (9#4).toNat ∧ 9 ≤ (15#4).toNat ∧ (withWord 0x000148009).status = .running ∧
    9 ≤ (fieldsAt (withWord 0x000148009)).bSel.toNat := by decide +kernel

/-- BusRowsLeaveTheRestUnchanged: the last valid selector. -/
theorem witness_valid_selector : (8#4).toNat < 9 := by decide

/-- InvalidAluCodesTakeTheLatch: the ends of the list, and a running cycle with such a code. -/
theorem witness_invalid_alu :
    (0#6).toNat ∉ validAluCodes ∧ (62#6).toNat ∉ validAluCodes ∧ (withWord 0x000008000).status = .running ∧
    (fieldsAt (withWord 0x000008000)).aluOp.toNat ∉ validAluCodes := by decide +kernel

/-- AluRowsLeaveTheRestUnchanged and ShiftRowsLeaveTheRestUnchanged: the clause about the trace. -/
theorem witness_valid_alu_and_shift : (63#6).toNat ∈ validAluCodes ∧ (2#2 : BitVec 2) ≠ 3#2 := by decide

/-- LatchCarriesTheCBusToTheNextCycle: the next cycle has an invalid ALU code. -/
theorem witness_latch : ∃ t, step (withWord 0) = .next t ∧ (fieldsAt t).aluOp.toNat ∉ validAluCodes :=
  ⟨_, rfl, by decide +kernel⟩

/-- CBusComesFromTheStartOfTheCycle, MemoryRowsAccessInBounds, SameCycleAccessesAreFetchReadWrite,
MemoryRowsLeaveTheRestUnchanged, WordsAndBytesShareOneArray: the last byte and the last word in bounds, memory
canonical. -/
theorem witness_in_bounds :
    inBounds { State.reset with pc := 0x98967F#32, mar := 0x26259F#32 } = true ∧
    (0x98967F#32).toNat < State.reset.cap ∧ 4 * (0x26259F#32).toNat < State.reset.cap ∧
    Memory.wf [(0x98967F, 0x42#8)] = true := by decide

/-- WordsAndBytesShareOneArray: the last lane, and the first byte of the next word index. -/
theorem witness_words : Memory.wf [(4, 1#8)] = true ∧ 3 < 4 ∧ 4 / 4 ≠ 0 := by decide

/-- ShiftRowsDriveTheCBus, WriteBackFollowsTheMask: a running cycle of each shift code, and one with no destination. -/
theorem witness_shift_and_mask :
    (fieldsAt (withWord 0x000140004)).shift = 0#2 ∧ (fieldsAt (withWord 0x000548004)).shift = 1#2 ∧
    (fieldsAt (withWord 0x000948004)).shift = 2#2 ∧ (fieldsAt (withWord 0x000D48004)).shift = 3#2 ∧
    (fieldsAt (withWord 0x000140004)).cMask = 0#9 ∧ (fieldsAt (withWord 0x000140004)).mem.getLsbD 1 = false := by
  decide +kernel

/-- MemoryRowsFaultOutOfBounds: each check failing alone at its first failing value, with the signal both ways. -/
theorem witness_out_of_bounds :
    State.reset.cap ≤ (0x989680#32).toNat ∧ State.reset.cap ≤ 4 * (0x2625A0#32).toNat ∧
    State.reset.faultPending = false ∧ ({ State.reset with faultPending := true } : State).faultPending = true := by decide

/-- MemoryUnitSeesTheWriteBack, FetchedByteIsSeenInItsCycleAndAfter, BoundsFaultHaltsTheCycle,
TerminationCheckDecidesTheStatus: a cycle with each request that stays in bounds, and cycles that fail a check. -/
theorem witness_bounds_both_ways :
    (∃ t, step (withWord 0x000140071) = .next t ∧ inBounds t = true ∧
      (fieldsAt (withWord 0x000140071)).mem.getLsbD 0 = true ∧ (fieldsAt (withWord 0x000140071)).mem.getLsbD 1 = true ∧
      (fieldsAt (withWord 0x000140071)).mem.getLsbD 2 = true) ∧
    (∃ t, step (withWord 0x000120290) = .next t ∧ inBounds t = false ∧ t.mbr ≠ 0xFF#8) ∧
    (withWord 0x000120290).mbr ≠ 0xFF#8 ∧ (withWord 0x000120290).status = .running :=
  ⟨⟨_, rfl, by decide +kernel⟩, ⟨_, rfl, by decide +kernel⟩, by decide +kernel⟩

/-- TerminationCheckDecidesTheStatus, NormalHaltIsAFetchedSentinel: a cycle that fetches the sentinel, one that does
not. -/
theorem witness_sentinel :
    (∃ t, step ({ State.reset with mem := [(0, 0xFF#8)] }.withFetchWord 36 0x000140011) = .next t ∧ t.mbr = 0xFF#8 ∧
      t.status = .haltedNormal) ∧
    ∃ t, step (withWord 0x000140011) = .next t ∧ t.mbr ≠ 0xFF#8 ∧ inBounds t = true :=
  ⟨⟨_, rfl, by decide +kernel⟩, ⟨_, rfl, by decide +kernel⟩⟩

/-- NoBoundsEventMeansNoFaultHalt: a cycle of each kind from a run without BOUNDS. -/
theorem witness_noBounds :
    State.reset.mbr ≠ 0xFF#8 ∧ NoBoundsFault State.reset ∧ (∃ t, step (withWord 0x000140011) = .next t ∧ NoBoundsFault t) ∧
    ∃ t, step (withWord 0x000120290) = .next t ∧ ¬NoBoundsFault t :=
  ⟨by decide, by unfold NoBoundsFault; decide, ⟨_, rfl, by unfold NoBoundsFault; decide +kernel⟩,
    ⟨_, rfl, by unfold NoBoundsFault; decide +kernel⟩⟩

/-- NextAddressIsTheOrOfItsParts and BothConditionBitsAlwaysTakeTheHighSlot: JUMP = 0b000, and both condition bits. -/
theorem witness_jump :
    (fieldsAt (withWord 0x038118000)).jump = 0#3 ∧ (fieldsAt (withWord 0x083140004)).jump.getLsbD 0 = true ∧
    (fieldsAt (withWord 0x083140004)).jump.getLsbD 1 = true ∧ (fieldsAt (withWord 0x083140004)).jump = 3#3 ∧
    (withWord 0x083140004).status = .running := by decide +kernel

/-- NextAddressRowsLeaveTheRestUnchanged: the first and the last of those rows. -/
theorem witness_next_rows : 15 ≤ (Instr.mpcNext 0#9).rank ∧ 15 ≤ Instr.jumpJmpc.rank := by decide

/-- UnfilledSlotRestartsTheMicroprogram: the reset state stands at an all-zero word, and an image of one record leaves
slot 1 and slot 511 unfilled. -/
theorem witness_unfilled :
    State.reset.status = .running ∧ State.reset.mbr ≠ 0xFF#8 ∧ controlWord State.reset.cs State.reset.mpc = 0#36 ∧
    (∃ cs, loadControlStore (List.replicate 8 1#8) = .ok cs) ∧ (List.replicate 8 1#8).length ≤ 8 * (1#9).toNat ∧
    (List.replicate 8 1#8).length ≤ 8 * (511#9).toNat :=
  ⟨rfl, by decide, by decide +kernel, ⟨_, rfl⟩, by decide, by decide⟩

/-- CycleWritesOnlyWhatItsFieldsName: a running machine with canonical memory whose microinstruction names nothing. -/
theorem witness_frame :
    (withWord 0x000140001).status = .running ∧ (withWord 0x000140001).mem.wf = true ∧
    (fieldsAt (withWord 0x000140001)).cMask = 0#9 ∧ (fieldsAt (withWord 0x000140001)).mem = 0#3 := by decide +kernel

/-- MarReachesOnlyTheMemoryUnit: neither rd nor wr, both values of MAR in bounds, the second the last one. -/
theorem witness_mar :
    (withWord 0x000140011).status = .running ∧ (fieldsAt (withWord 0x000140011)).mem.getLsbD 1 = false ∧
    (fieldsAt (withWord 0x000140011)).mem.getLsbD 2 = false ∧ 4 * (withWord 0x000140011).mar.toNat < State.reset.cap ∧
    4 * (0x26259F#32).toNat < State.reset.cap ∧
    ∃ t, step (withWord 0x000140011) = .next t ∧ t.pc.toNat < State.reset.cap :=
  ⟨rfl, by decide +kernel, by decide +kernel, by decide +kernel, by decide, ⟨_, rfl, by decide +kernel⟩⟩

/-- EveryStepKeepsTheInvariant, TransientsDoNotOutliveTheirCycle: a state in the invariant that has a step. -/
theorem witness_invariant : Inv { State.reset with h := 1#32 } ∧ ∃ t, step { State.reset with h := 1#32 } = .next t :=
  ⟨⟨by decide, rfl, by decide, ⟨rfl, rfl, rfl⟩, ⟨by decide, by decide⟩⟩, ⟨_, rfl⟩⟩

/-- EveryLaunchMeetsTheInvariant, LaunchLeavesTheResetState: legal parameters at both ends and a launch that succeeds. -/
theorem witness_launch :
    Config.reference.Ok ∧ Config.Params.Ok { cap := 20, origin := 20 } ∧
    Config.Params.Ok { cap := 2 ^ 32, origin := 2 ^ 32 } ∧
    ∃ s, launch Config.reference (.bytes (List.replicate 8 1#8)) (some (.bytes imageL6)) = .ok s :=
  ⟨by decide, by decide, by decide, ⟨_, rfl⟩⟩

/-- ControlStoreImageFillsTheSlots, RecordBitsAbove35AreIgnored: no record, 512 records, 513 records, and 12 bytes. -/
theorem witness_control_store_images :
    (List.replicate 0 (0#8 : Byte)).length % 8 = 0 ∧ (List.replicate 4096 (0#8 : Byte)).length % 8 = 0 ∧
    (List.replicate 4096 (0#8 : Byte)).length / 8 ≤ 512 ∧ 512 < (List.replicate 4104 (0#8 : Byte)).length / 8 ∧
    (List.replicate 12 (0#8 : Byte)).length % 8 ≠ 0 := by
  simp only [List.length_replicate]
  decide

/-- ProgramImageFillsMemory: the smallest capacity with an empty body. -/
theorem witness_program_image :
    ∃ m, loadProgram { cap := 20, origin := 20 } ([20#8, 0#8, 0#8, 0#8] ++ List.replicate 20 7#8) = .ok m := ⟨_, rfl⟩

/-- ProgramImageChecksInOrder: an image at each clause, size CAP + 1 and CAP, 19 and 20, and lengths 3, 4, 23, 24. -/
theorem witness_program_checks :
    imageSize [0x81#8, 0x96#8, 0x98#8, 0#8] = Config.reference.cap + 1 ∧
    imageSize [0x80#8, 0x96#8, 0x98#8, 0#8] = Config.reference.cap ∧
    Config.reference.cap < Config.reference.origin + imageSize [0x80#8, 0x96#8, 0x98#8, 0#8] - 20 ∧
    imageSize [19#8, 0#8, 0#8, 0#8] < 20 ∧ imageSize [20#8, 0#8, 0#8, 0#8] = 20 ∧
    ([20#8, 0#8, 0#8] : List Byte).length < 4 ∧ ([20#8, 0#8, 0#8, 0#8] ++ List.replicate 19 0#8).length < 24 ∧
    ([21#8, 0#8, 0#8, 0#8] ++ List.replicate 20 0#8).length < 4 + imageSize [21#8, 0#8, 0#8, 0#8] ∧
    4 + imageSize imageL6 ≤ imageL6.length ∧ Config.reference.origin + imageSize imageL6 - 20 ≤ Config.reference.cap := by
  decide

/-- FirstLoadErrorEndsTheLaunch: an image that fails and images that pass. -/
theorem witness_load_errors :
    loadControlStore [0#8] = .error (.csFormat 1) ∧ (∃ cs, loadControlStore [] = .ok cs) ∧
    loadProgram Config.reference [] = .error (.progShort 0 4) ∧ ∃ m, loadProgram Config.reference imageL6 = .ok m :=
  ⟨rfl, ⟨_, rfl⟩, rfl, ⟨_, rfl⟩⟩

end Sys2Proof.Tests
end

section
/-! SUPPORT. A step of a running machine is `cycleResult`: what the rows of each group of a cycle do as one update of the
state, then the nine steps one after another. The frame, noninterference and invariant statements about a cycle follow from
it. -/

namespace Sys2Proof.Machine

/-! ### The write-back rows -/

theorem runRows_rowIf_cMar (bit : Bool) (s : State) :
    runRows (rowIf bit .cMar) s = .next { s with mar := if bit then s.cl else s.mar } := by cases bit <;> rfl

theorem runRows_rowIf_cMdr (bit : Bool) (s : State) :
    runRows (rowIf bit .cMdr) s = .next { s with mdr := if bit then s.cl else s.mdr } := by cases bit <;> rfl

theorem runRows_rowIf_cPc (bit : Bool) (s : State) :
    runRows (rowIf bit .cPc) s = .next { s with pc := if bit then s.cl else s.pc } := by cases bit <;> rfl

theorem runRows_rowIf_cSp (bit : Bool) (s : State) :
    runRows (rowIf bit .cSp) s = .next { s with sp := if bit then s.cl else s.sp } := by cases bit <;> rfl

theorem runRows_rowIf_cLv (bit : Bool) (s : State) :
    runRows (rowIf bit .cLv) s = .next { s with lv := if bit then s.cl else s.lv } := by cases bit <;> rfl

theorem runRows_rowIf_cCpp (bit : Bool) (s : State) :
    runRows (rowIf bit .cCpp) s = .next { s with cpp := if bit then s.cl else s.cpp } := by cases bit <;> rfl

theorem runRows_rowIf_cTos (bit : Bool) (s : State) :
    runRows (rowIf bit .cTos) s = .next { s with tos := if bit then s.cl else s.tos } := by cases bit <;> rfl

theorem runRows_rowIf_cOpc (bit : Bool) (s : State) :
    runRows (rowIf bit .cOpc) s = .next { s with opc := if bit then s.cl else s.opc } := by cases bit <;> rfl

theorem runRows_rowIf_cH (bit : Bool) (s : State) :
    runRows (rowIf bit .cH) s = .next { s with h := if bit then s.cl else s.h } := by cases bit <;> rfl

/-- `s` with the C bus `c` in the registers that the C_MASK of `f` names (43_cbus_writeback.md R104). -/
def writeBack (f : Fields) (c : Word) (s : State) : State :=
  { s with
    mar := writtenBack f 0 c s.mar, mdr := writtenBack f 1 c s.mdr, pc := writtenBack f 2 c s.pc
    sp := writtenBack f 3 c s.sp, lv := writtenBack f 4 c s.lv, cpp := writtenBack f 5 c s.cpp
    tos := writtenBack f 6 c s.tos, opc := writtenBack f 7 c s.opc, h := writtenBack f 8 c s.h }

/-- The write-back rows put CL, which holds the C bus, in the registers of the mask. -/
theorem runRows_cRows (f : Fields) (s : State) : runRows (cRows f.cMask) s = .next (writeBack f s.cl s) := by
  simp only [cRows, runRows_append, runRows_rowIf_cMar, runRows_rowIf_cMdr, runRows_rowIf_cPc, runRows_rowIf_cSp,
    runRows_rowIf_cLv, runRows_rowIf_cCpp, runRows_rowIf_cTos, runRows_rowIf_cOpc, runRows_rowIf_cH, andThen_next]
  rfl

/-! ### The other groups of rows -/

/-- Everything steps 3 to 6 do: B bus `b`, ALU result `r` with its flags, C bus `c` in CL and in the registers of the mask,
and the warnings. -/
theorem runRows_datapathRows {f : Fields} {s : State} {b r c : Word} (hb : b = busValue f.bSel s)
    (hr : r = aluValue f.aluOp b s) (hc : c = shiftValue f.shift r) :
    runRows (datapathRows f) s = .next (writeBack f c { s with
      busB := b, aluR := r, z := r == 0#32, n := r != 0#32, cl := c, trace := s.trace ++ warningsOf f s.mpc }) := by
  subst hb hr hc
  simp only [datapathRows, runRows_cons, exec_bRow, exec_aluRow, exec_shiftRow, andThen_next, runRows_cRows, warningsOf,
    List.append_assoc]
  rfl

/-- The rows of step 8 leave the next address in MPC (45_next_address.md R121). -/
theorem runRows_nextRows (f : Fields) (s : State) :
    runRows (nextRows f) s = .next { s with mpc := nextAddress f s.n s.z s.mbr } := by
  unfold nextRows jumpRows nextAddress
  generalize f.jump.getLsbD 0 = jamn, f.jump.getLsbD 1 = jamz, f.jump.getLsbD 2 = jmpc
  cases jamn <;> cases jamz <;> cases jmpc <;>
    simp [rowIf, runRows_cons, exec, execMpcNext, execJumpJamn, execJumpJamz, execJumpJmpc, orMpc, flagBit8]

/-- `s` after step 7 with the MEM field `bits`: the accesses where the bounds check passes, the BOUNDS fault and no access
where it fails (44_memory_unit.md R114, R115, R120). -/
def memoryStep (bits : BitVec 3) (s : State) : State :=
  let mdr := if inBounds s && bits.getLsbD 1 then s.mem.readWord (wordAddr s) else s.mdr
  { s with
    mbr := if inBounds s && bits.getLsbD 0 then s.mem.read s.pc.toNat else s.mbr
    mdr := mdr
    mem := if inBounds s && bits.getLsbD 2 then s.mem.writeWord (wordAddr s) mdr else s.mem
    trace := s.trace ++ if inBounds s then [] else [boundsEvent s]
    faultPending := !inBounds s }

theorem runRows_memRows_boundsCheck (bits : BitVec 3) {s : State} (hp : s.faultPending = false) :
    runRows (memRows bits) (boundsCheck s) = .next (memoryStep bits s) := by
  cases hin : inBounds s with
  | true => simp [memoryStep, boundsCheck_of_inBounds hin, runRows_memRows bits hin, hin, ← hp]
  | false =>
    rw [boundsCheck_of_not_inBounds hin, runRows_memRows_fault bits (by simpa using hin) (by simp)]
    simp [memoryStep, raiseBounds, hin, hp, record]

/-- The end of a cycle whose fault-pending signal tells whether its bounds check failed: the sentinel decides first, then
the bounds check (46_cycle_engine.md R132). -/
theorem endCycle_of_running (slot : Slot) {s : State} (hs : s.status = .running)
    (hp : s.faultPending = !inBounds s) : endCycle slot s = { s with
      status := if s.mbr = 0xFF#8 then .haltedNormal else if inBounds s then .running else .haltedFault
      trace := s.trace ++ if s.mbr = 0xFF#8 then [.haltSentinel s.pc slot] else []
      busB := 0#32, aluR := 0#32, faultPending := false } := by
  have hfault : (!pcOk s || s.faultPending) = !inBounds s := by rw [hp, inBounds]; cases pcOk s <;> simp
  rw [endCycle_eq, hfault, hs, Config.haltSentinel]
  cases inBounds s <;> rfl

/-! ### The whole cycle -/

/-- The state in which step 7 makes its bounds check. -/
def afterDatapath (s : State) : State :=
  writeBack (fieldsAt s) (cBusAt s) { beginCycle s with
    busB := busValue (fieldsAt s).bSel s, aluR := aluAt s, z := aluAt s == 0#32, n := aluAt s != 0#32, cl := cBusAt s
    trace := s.trace ++ warningsOf (fieldsAt s) s.mpc }

theorem runRows_datapathRows_beginCycle (s : State) :
    runRows (datapathRows (fieldsAt s)) (beginCycle s) = .next (afterDatapath s) :=
  runRows_datapathRows rfl rfl rfl

/-- The nine steps, one after another, are the cycle as one state. -/
theorem cycle_eq_cycleResult {s : State} (hs : s.status = .running) : cycle s = .next (cycleResult s) := by
  change andThen (runRows (datapathRows (fieldsAt s)) (beginCycle s)) (fun s1 =>
    andThen (runRows (memRows (fieldsAt s).mem) (boundsCheck s1)) fun s2 =>
    andThen (runRows (nextRows (fieldsAt s)) s2) fun s3 => .next (endCycle s.mpc s3)) = _
  rw [runRows_datapathRows_beginCycle, andThen_next, runRows_memRows_boundsCheck _ rfl, andThen_next,
    runRows_nextRows, andThen_next]
  exact congrArg Host.Outcome.next (endCycle_of_running s.mpc hs rfl)

/-- Everything a step of a running machine does (46_cycle_engine.md R130). -/
theorem step_eq_cycleResult {s : State} (hs : s.status = .running) : step s = .next (cycleResult s) :=
  (step_of_running hs).trans (cycle_eq_cycleResult hs)

/-- A next state is the cycle's result. -/
theorem eq_cycleResult_of_step {s t : State} (h : step s = .next t) : t = cycleResult s := by
  rw [step_eq_cycleResult (running_of_step h)] at h
  exact (Host.Outcome.next.inj h).symm

end Sys2Proof.Machine
end

section
/-! SUPPORT. What a cycle changes, what it may depend on, and that it keeps the invariant, from the cycle as one state. -/

namespace Sys2Proof.Machine

/-! ### The fields of `cycleResult`, with the bounds check of the cycle read off the registers that it leaves -/

theorem cycleResult_mbr (s : State) : (cycleResult s).mbr =
    if inBounds (cycleResult s) && (fieldsAt s).mem.getLsbD 0 then s.mem.read (cycleResult s).pc.toNat else s.mbr := rfl

theorem cycleResult_mdr (s : State) : (cycleResult s).mdr =
    if inBounds (cycleResult s) && (fieldsAt s).mem.getLsbD 1 then s.mem.readWord (wordAddr (cycleResult s))
    else writtenBack (fieldsAt s) 1 (cBusAt s) s.mdr := rfl

theorem cycleResult_mem (s : State) : (cycleResult s).mem =
    if inBounds (cycleResult s) && (fieldsAt s).mem.getLsbD 2 then
      s.mem.writeWord (wordAddr (cycleResult s)) (cycleResult s).mdr
    else s.mem := rfl

theorem cycleResult_status (s : State) : (cycleResult s).status =
    if (cycleResult s).mbr = 0xFF#8 then .haltedNormal
    else if inBounds (cycleResult s) then .running else .haltedFault := rfl

/-- The events that the next cycle appends to the trace, in step order (60_exceptions.md R137). -/
def cycleEvents (s : State) : List Event :=
  warningsOf (fieldsAt s) s.mpc ++
  (if inBounds (cycleResult s) then [] else
    [.bounds (pcOk (cycleResult s)) (marOk (cycleResult s)) (cycleResult s).pc (cycleResult s).mar s.mpc]) ++
  (if (cycleResult s).mbr = 0xFF#8 then [.haltSentinel (cycleResult s).pc s.mpc] else [])

theorem cycleResult_trace (s : State) : (cycleResult s).trace = s.trace ++ cycleEvents s := by
  simp only [cycleEvents, ← List.append_assoc]
  rfl

theorem writtenBack_of_clear {f : Fields} {bit : Nat} {c old : Word} (h : f.cMask.getLsbD bit = false) :
    writtenBack f bit c old = old := by simp [writtenBack, h]

theorem writtenBack_of_set {f : Fields} {bit : Nat} {c old : Word} (h : f.cMask.getLsbD bit = true) :
    writtenBack f bit c old = c := by simp [writtenBack, h]

/-! ### Memory after a cycle -/

/-- A cycle's memory is the old one, or the old one with one word written in bounds. -/
theorem cycleResult_mem_cases (s : State) : (cycleResult s).mem = s.mem ∨
    (inBounds (cycleResult s) = true ∧ (fieldsAt s).mem.getLsbD 2 = true ∧
      (cycleResult s).mem = s.mem.writeWord (wordAddr (cycleResult s)) (cycleResult s).mdr) := by
  rw [cycleResult_mem]
  split
  · next h =>
    obtain ⟨hin, hwr⟩ := Bool.and_eq_true_iff.1 h
    exact .inr ⟨hin, hwr, rfl⟩
  · exact .inl rfl

theorem wf_cycleResult_mem {s : State} (h : s.mem.wf = true) : (cycleResult s).mem.wf = true := by
  rcases cycleResult_mem_cases s with he | ⟨-, -, he⟩ <;> rw [he]
  · exact h
  · exact wf_writeWord _ _ h

/-- A cycle changes no byte outside the word at the new 4 * MAR. -/
theorem read_cycleResult_mem_of_outside {s : State} (hwf : s.mem.wf = true) {a : Nat}
    (ha : ¬(4 * (cycleResult s).mar.toNat ≤ a ∧ a < 4 * (cycleResult s).mar.toNat + 4)) :
    (cycleResult s).mem.read a = s.mem.read a := by
  rcases cycleResult_mem_cases s with he | ⟨-, -, he⟩ <;> rw [he]
  rw [read_writeWord _ _ _ hwf, wordAddr, if_neg ha]

/-- Where CAP is a multiple of four, a word whose first byte is below CAP is below it whole (20_memory.md R35, R41). -/
theorem cycleResult_mem_within_cap {s : State} (hcap : s.cap % 4 = 0) (h : ∀ c ∈ s.mem, c.1 < s.cap) :
    ∀ c ∈ (cycleResult s).mem, c.1 < s.cap := by
  intro c hc
  rcases cycleResult_mem_cases s with he | ⟨hin, -, he⟩ <;> rw [he] at hc
  · exact h c hc
  · have hmar : 4 * (cycleResult s).mar.toNat < s.cap := ((inBounds_iff _).1 hin).2
    rcases mem_writeWord hc with ⟨-, hlt⟩ | hc
    · rw [wordAddr] at hlt
      omega
    · exact h c hc

/-! ### The invariant -/

/-- A cycle without a sentinel at its start ends with one only in bounds, where the byte was fetched
(46_cycle_engine.md R132). -/
theorem inBounds_of_cycleResult_mbr_eq {s : State} (hmbr : s.mbr ≠ 0xFF#8) (h : (cycleResult s).mbr = 0xFF#8) :
    inBounds (cycleResult s) = true := by
  by_contra hin
  rw [cycleResult_mbr, Bool.eq_false_iff.2 hin] at h
  exact hmbr h

theorem statusAgrees_cycleResult {s : State} (hmbr : s.mbr ≠ 0xFF#8) : StatusAgrees (cycleResult s) := by
  rw [StatusAgrees, cycleResult_status]
  by_cases hff : (cycleResult s).mbr = 0xFF#8
  · simp only [if_pos hff]
    exact ⟨hff, inBounds_of_cycleResult_mbr_eq hmbr hff⟩
  · simp only [if_neg hff]
    cases hin : inBounds (cycleResult s) with
    | true => exact ⟨hff, rfl⟩
    | false => exact ⟨hff, rfl⟩

theorem mbr_ne_sentinel_of_inv {s : State} (hinv : Inv s) (hs : s.status = .running) : s.mbr ≠ 0xFF#8 := by
  have hagrees := hinv.statusAgrees
  rw [StatusAgrees, hs] at hagrees
  exact hagrees.1

theorem atRest_cycleResult (s : State) : AtRest (cycleResult s) := ⟨rfl, rfl, rfl⟩

theorem inv_cycleResult {s : State} (hinv : Inv s) (hs : s.status = .running) : Inv (cycleResult s) where
  capOk := hinv.capOk
  memCanonical := wf_cycleResult_mem hinv.memCanonical
  memWithinCap := cycleResult_mem_within_cap hinv.capOk.2.2 hinv.memWithinCap
  atRest := atRest_cycleResult s
  statusAgrees := statusAgrees_cycleResult (mbr_ne_sentinel_of_inv hinv hs)

/-- Settles O50: a step is `cycleResult`, which keeps each clause of the invariant. -/
theorem everyStepKeepsTheInvariant : Obligations.EveryStepKeepsTheInvariant := by
  intro s t hinv hstep
  rw [eq_cycleResult_of_step hstep]
  exact inv_cycleResult hinv (running_of_step hstep)

/-! ### The frame of a cycle -/

/-- Settles O45: each register of `cycleResult` is the old one where its bit is clear; memory is written at the new
4 * MAR only. -/
theorem cycleWritesOnlyWhatItsFieldsName : Obligations.CycleWritesOnlyWhatItsFieldsName := by
  intro s hs hwf
  refine ⟨cycleResult s, step_eq_cycleResult hs, writtenBack_of_clear, fun hc hrd => ?_, writtenBack_of_clear,
    writtenBack_of_clear, writtenBack_of_clear, writtenBack_of_clear, writtenBack_of_clear, writtenBack_of_clear,
    writtenBack_of_clear, fun hfetch => ?_, fun hwr => ?_, fun a => read_cycleResult_mem_of_outside hwf, rfl,
    cycleEvents s, cycleResult_trace s⟩
  · rw [cycleResult_mdr, hrd, Bool.and_false, if_neg Bool.false_ne_true, writtenBack_of_clear hc]
  · rw [cycleResult_mbr, hfetch, Bool.and_false, if_neg Bool.false_ne_true]
  · rw [cycleResult_mem, hwr, Bool.and_false, if_neg Bool.false_ne_true]

/-- Settles O46: `cycleResult` takes both from the state before. -/
theorem controlStoreAndCapacityNeverChange : Obligations.ControlStoreAndCapacityNeverChange :=
  fun s hs => ⟨cycleResult s, step_eq_cycleResult hs, rfl, rfl⟩

/-! ### What a cycle may depend on -/

theorem fieldsAt_setMar (s : State) (m : Word) : fieldsAt { s with mar := m } = fieldsAt s := rfl

theorem aluAt_setMar (s : State) (m : Word) : aluAt { s with mar := m } = aluAt s := rfl

theorem cBusAt_setMar (s : State) (m : Word) : cBusAt { s with mar := m } = cBusAt s := rfl

/-- Where MAR is written back, no cycle depends on the MAR before it. -/
theorem cycleResult_setMar_of_set {s : State} (m : Word) (hmask : (fieldsAt s).cMask.getLsbD 0 = true) :
    cycleResult { s with mar := m } = cycleResult s := by
  simp only [cycleResult, fieldsAt_setMar, aluAt_setMar, cBusAt_setMar, writtenBack_of_set hmask]

/-- Where MAR is kept and addresses no word, two values of it in bounds lead to states that differ in MAR only. -/
theorem cycleResult_setMar_of_clear {s : State} {m : Word} (hmask : (fieldsAt s).cMask.getLsbD 0 = false)
    (hrd : (fieldsAt s).mem.getLsbD 1 = false) (hwr : (fieldsAt s).mem.getLsbD 2 = false)
    (hmar : 4 * s.mar.toNat < s.cap) (hm : 4 * m.toNat < s.cap) (hpc : (cycleResult s).pc.toNat < s.cap) :
    cycleResult { s with mar := m } = { cycleResult s with mar := m } := by
  have hpc' : Nat.blt (writtenBack (fieldsAt s) 2 (cBusAt s) s.pc).toNat s.cap = true := (pcOk_iff (cycleResult s)).2 hpc
  have hmar' : Nat.blt (4 * s.mar.toNat) s.cap = true := (marOk_iff s).2 hmar
  have hm' : Nat.blt (4 * m.toNat) s.cap = true := (marOk_iff { s with mar := m }).2 hm
  simp only [cycleResult, fieldsAt_setMar, aluAt_setMar, cBusAt_setMar, writtenBack_of_clear hmask, hrd, hwr, hpc', hmar',
    hm', Bool.and_false, Bool.and_self, Bool.false_eq_true, if_true, if_false]

/-- Settles O47, by whether the mask selects MAR. -/
theorem marReachesOnlyTheMemoryUnit : Obligations.MarReachesOnlyTheMemoryUnit := by
  intro s m hs hrd hwr hmar hm
  refine ⟨cycleResult s, step_eq_cycleResult hs, fun hpc => ?_⟩
  rw [step_eq_cycleResult (s := { s with mar := m }) hs]
  cases hmask : (fieldsAt s).cMask.getLsbD 0 with
  | true => rw [cycleResult_setMar_of_set m hmask]; rfl
  | false => rw [cycleResult_setMar_of_clear hmask hrd hwr hmar hm hpc]; rfl

theorem cycleResult_setTrace (s : State) (other : List Event) :
    cycleResult { s with trace := other } = { cycleResult s with trace := other ++ cycleEvents s } := by
  simp only [cycleEvents, ← List.append_assoc]
  rfl

/-- Settles O48: the appended events are `cycleEvents`, which do not depend on the trace. -/
theorem traceIsNeverRead : Obligations.TraceIsNeverRead := by
  intro s other hs
  refine ⟨cycleResult s, cycleEvents s, step_eq_cycleResult hs, cycleResult_trace s, ?_⟩
  rw [step_eq_cycleResult (s := { s with trace := other }) hs, cycleResult_setTrace]

/-- The latch of step 1 clears whatever stands in the fields that live inside a cycle (10_state.md R31, R32). -/
theorem beginCycle_setTransients (s : State) (b r : Word) (p : Bool) :
    beginCycle { s with busB := b, aluR := r, faultPending := p } = beginCycle s := rfl

theorem step_setTransients (s : State) (b r : Word) (p : Bool) :
    step { s with busB := b, aluR := r, faultPending := p } = step s := by
  simp only [step, cycle, beginCycle_setTransients]

/-- Settles O49: a cycle begins and ends by clearing the three fields. -/
theorem transientsDoNotOutliveTheirCycle : Obligations.TransientsDoNotOutliveTheirCycle := by
  refine fun s b r p => ⟨step_setTransients s b r p, fun t hstep => ?_⟩
  rw [eq_cycleResult_of_step hstep]
  exact atRest_cycleResult s

end Sys2Proof.Machine
end

section
/-! SUPPORT. What a successful launch is: the images that pass the checks, the control store and the memory that they
give, and that the state of the first cycle meets the invariant. -/

namespace Sys2Proof.Machine

/-! ### Inversion of a launch -/

/-- A successful launch has two readable images that pass their checks, and gives the reset state with what they load. -/
theorem launch_ok {p : Config.Params} {cs : Image} {prog : Option Image} {s : State} (h : launch p cs prog = .ok s) :
    ∃ csBytes progBytes store mem, cs = .bytes csBytes ∧ prog = some (.bytes progBytes) ∧
      loadControlStore csBytes = .ok store ∧ loadProgram p progBytes = .ok mem ∧
      s = { State.reset with cs := store, mem := mem, cap := p.cap } := by
  unfold launch at h
  split at h
  · cases h
  split at h
  · cases h
  next csBytes =>
  split at h
  · cases h
  next store hcs =>
  split at h
  · cases h
  next progBytes =>
  split at h
  · cases h
  next mem hmem =>
  exact ⟨csBytes, progBytes, store, mem, rfl, rfl, hcs, hmem, (Except.ok.inj h).symm⟩

theorem loadControlStore_ok {image : List Byte} {store : Vector MicroWord 512} (h : loadControlStore image = .ok store) :
    image.length % 8 = 0 ∧ store = loadRecords (Vector.replicate 512 0#36) 0 image := by
  unfold loadControlStore at h
  split at h
  · cases h
  · next hsize => exact ⟨by_contra fun hmod => hsize (.inl hmod), (Except.ok.inj h).symm⟩

theorem toNat_wordOfBytes (b0 b1 b2 b3 : Byte) : (wordOfBytes b0 b1 b2 b3).toNat =
    b0.toNat + b1.toNat * 2 ^ 8 + b2.toNat * 2 ^ 16 + b3.toNat * 2 ^ 24 := by
  have happend : wordOfBytes b0 b1 b2 b3 = b3 ++ b2 ++ b1 ++ b0 := by
    apply BitVec.eq_of_getLsbD_eq
    intro i hi
    simp only [wordOfBytes, BitVec.getLsbD_or, BitVec.getLsbD_shiftLeft, BitVec.getLsbD_setWidth, BitVec.getLsbD_append]
    interval_cases i <;> simp
  rw [happend]
  simp only [BitVec.toNat_append]
  rw [← Nat.shiftLeft_add_eq_or_of_lt b2.isLt, ← Nat.shiftLeft_add_eq_or_of_lt b1.isLt,
    ← Nat.shiftLeft_add_eq_or_of_lt b0.isLt]
  simp only [Nat.shiftLeft_eq]
  ring

/-- The memory of a program image that passes the checks: the initialization block at 0, the body at ORIGIN
(70_reset_and_hazards.md R156). -/
def programMemory (p : Config.Params) (image : List Byte) : Memory :=
  storeBytes (storeBytes [] 0 ((image.drop 4).take 20)) p.origin ((image.drop 24).take (imageSize image - 20))

/-- A program image that loads has passed the checks of R157, and gives `programMemory`. -/
theorem loadProgram_ok {p : Config.Params} {image : List Byte} {mem : Memory} (h : loadProgram p image = .ok mem) :
    20 ≤ imageSize image ∧ p.origin + imageSize image - 20 ≤ p.cap ∧ 4 + imageSize image ≤ image.length ∧
      mem = programMemory p image := by
  match image with
  | [] | [_] | [_, _] | [_, _, _] => cases h
  | p0 :: p1 :: p2 :: p3 :: rest =>
    have hsize : (wordOfBytes p0 p1 p2 p3).toNat = imageSize (p0 :: p1 :: p2 :: p3 :: rest) := toNat_wordOfBytes _ _ _ _
    simp only [loadProgram, hsize, Config.initBlockBytes] at h
    split_ifs at h with hlarge hsmall hbody hblock hshort
    refine ⟨?_, ?_, ?_, ?_⟩
    · omega
    · omega
    · simp only [List.length_cons]; omega
    · simpa [programMemory] using (Except.ok.inj h).symm

/-! ### The control store after a launch -/

/-- Past the first record of an image, its slots are those of the rest of the image. -/
theorem imageSlot_record_succ (b0 b1 b2 b3 b4 b5 b6 b7 : Byte) (rest : List Byte) (j : Nat) :
    imageSlot (b0 :: b1 :: b2 :: b3 :: b4 :: b5 :: b6 :: b7 :: rest) (j + 1) = imageSlot rest j := by
  have hbyte (r : Nat) : imageByteAt (b0 :: b1 :: b2 :: b3 :: b4 :: b5 :: b6 :: b7 :: rest) (8 * (j + 1) + r) =
      imageByteAt rest (8 * j + r) := by
    rw [show 8 * (j + 1) + r = 8 * j + r + 8 by omega]
    rfl
  have hlen : 8 * (j + 1) < (b0 :: b1 :: b2 :: b3 :: b4 :: b5 :: b6 :: b7 :: rest).length ↔ 8 * j < rest.length := by
    simp only [List.length_cons]; omega
  have hfirst := hbyte 0
  simp only [Nat.add_zero] at hfirst
  simp only [imageSlot, hlen, hfirst, hbyte]

/-- Whole records loaded from slot `k` on fill that slot and those after it, as many as there are records. -/
theorem controlWord_loadRecords (i : Slot) : ∀ (image : List Byte) (store : Vector MicroWord 512) (k : Nat),
    image.length % 8 = 0 → controlWord (loadRecords store k image) i =
      if k ≤ i.toNat ∧ 8 * (i.toNat - k) < image.length then imageSlot image (i.toNat - k) else controlWord store i
  | b0 :: b1 :: b2 :: b3 :: b4 :: b5 :: b6 :: b7 :: rest, store, k, hmod => by
    have hrest : rest.length % 8 = 0 := by simp only [List.length_cons] at hmod; omega
    simp only [loadRecords, controlWord_loadRecords i rest _ _ hrest, controlWord_setIfInBounds, List.length_cons]
    rcases Nat.lt_trichotomy i.toNat k with hlt | heq | hgt
    · rw [if_neg (by omega), if_neg (by omega), if_neg (by omega)]
    · subst heq
      rw [if_neg (by omega), if_pos rfl, if_pos (by omega), Nat.sub_self]
      rfl
    · obtain ⟨j, hj⟩ := Nat.exists_eq_add_of_lt hgt
      rw [show i.toNat - k = j + 1 by omega, show i.toNat - (k + 1) = j by omega, imageSlot_record_succ,
        if_neg (by omega : ¬k = i.toNat)]
      by_cases hin : 8 * j < rest.length
      · rw [if_pos ⟨hgt, hin⟩, if_pos (by omega)]
      · rw [if_neg (by omega), if_neg (by omega)]
  | [], _, _, _ => (if_neg (by simp)).symm
  | [_], _, _, hmod | [_, _], _, _, hmod | [_, _, _], _, _, hmod | [_, _, _, _], _, _, hmod
  | [_, _, _, _, _], _, _, hmod | [_, _, _, _, _, _], _, _, hmod | [_, _, _, _, _, _, _], _, _, hmod => by
    simp at hmod

/-- Slot `i` after a successful load: record `i` of the image, 0 where it has none (70_reset_and_hazards.md R154). -/
theorem controlWord_loadControlStore {image : List Byte} {store : Vector MicroWord 512}
    (h : loadControlStore image = .ok store) (i : Slot) : controlWord store i = imageSlot image i.toNat := by
  obtain ⟨hmod, rfl⟩ := loadControlStore_ok h
  rw [controlWord_loadRecords i image _ 0 hmod, Nat.sub_zero]
  split
  · rfl
  · next hpast =>
    rw [imageSlot, if_neg fun hin => hpast ⟨Nat.zero_le _, hin⟩]
    simp [controlWord]

/-! ### Main memory after a launch -/

/-- Byte `j` of the `n` bytes of an image from byte `k` on. -/
theorem getD_take_drop {image : List Byte} {k n j : Nat} (hj : j < n) :
    ((image.drop k).take n).getD j 0#8 = imageByteAt image (k + j) := by
  simp [imageByteAt, List.getD, hj, List.getElem?_drop]

theorem wf_programMemory (p : Config.Params) (image : List Byte) : (programMemory p image).wf = true :=
  wf_storeBytes _ _ _ (wf_storeBytes _ _ _ rfl)

/-- The block and the body do not overlap, since ORIGIN is at least 20. -/
theorem read_programMemory {p : Config.Params} {image : List Byte} (horigin : 20 ≤ p.origin)
    (hsize : 20 ≤ imageSize image) (hlen : 4 + imageSize image ≤ image.length) (a : Nat) :
    (programMemory p image).read a = imageMemory p image a := by
  have hblock : ((image.drop 4).take 20).length = 20 := by simp only [List.length_take, List.length_drop]; omega
  have hbody : ((image.drop 24).take (imageSize image - 20)).length = imageSize image - 20 := by
    simp only [List.length_take, List.length_drop]; omega
  rw [programMemory, read_storeBytes _ _ _ _ (wf_storeBytes _ _ _ rfl), read_storeBytes _ _ _ _ rfl, hblock, hbody,
    imageMemory]
  by_cases hlow : a < 20
  · rw [if_neg (by omega), if_pos (by omega), if_pos hlow, Nat.sub_zero, getD_take_drop hlow]
  · rw [if_neg hlow, if_neg (by omega : ¬(0 ≤ a ∧ a < 0 + 20))]
    by_cases hin : p.origin ≤ a ∧ a < p.origin + (imageSize image - 20)
    · rw [if_pos hin, if_pos hin, getD_take_drop (by omega)]
    · rw [if_neg hin, if_neg hin]
      rfl

theorem programMemory_within_cap {p : Config.Params} {image : List Byte} (hp : p.Ok)
    (hfits : p.origin + imageSize image - 20 ≤ p.cap) : ∀ c ∈ programMemory p image, c.1 < p.cap := by
  obtain ⟨-, horigin, hcap⟩ := hp
  intro c hc
  rcases mem_storeBytes _ _ _ _ hc with ⟨-, hbody⟩ | hc
  · rw [List.length_take] at hbody
    omega
  rcases mem_storeBytes _ _ _ _ hc with ⟨-, hblock⟩ | hc
  · rw [List.length_take] at hblock
    omega
  · cases hc

/-! ### The launch state -/

/-- What the invariant says of registers and status holds at a launch, whatever is loaded. -/
theorem inv_launchState {cap : Nat} (store : Vector MicroWord 512) {mem : Memory} (hcap : Config.CapOk cap)
    (hwf : mem.wf = true) (hwithin : ∀ c ∈ mem, c.1 < cap) :
    Inv { State.reset with cs := store, mem := mem, cap := cap } where
  capOk := hcap
  memCanonical := hwf
  memWithinCap := hwithin
  atRest := ⟨rfl, rfl, rfl⟩
  statusAgrees := by
    have hpos : 0 < cap := Nat.lt_of_lt_of_le (by decide) hcap.1
    have hmbr : State.reset.mbr ≠ 0xFF#8 := by decide
    exact ⟨hmbr, (inBounds_iff _).2 ⟨hpos, hpos⟩⟩

/-- Settles O51: reset is a launch state with nothing loaded. -/
theorem resetMeetsTheInvariant : Obligations.ResetMeetsTheInvariant :=
  inv_launchState (mem := []) _ (by decide) rfl (by simp)

/-- Settles O52: what the launch loads is canonical and below CAP. -/
theorem everyLaunchMeetsTheInvariant : Obligations.EveryLaunchMeetsTheInvariant := by
  intro p cs prog s hp h
  obtain ⟨_, progBytes, store, mem, -, -, -, hmem, rfl⟩ := launch_ok h
  obtain ⟨-, hfits, -, rfl⟩ := loadProgram_ok hmem
  exact inv_launchState store hp.1 (wf_programMemory p progBytes) (programMemory_within_cap hp hfits)

/-- Settles O53: the launch state is the reset state but for what the two images load. -/
theorem launchLeavesTheResetState : Obligations.LaunchLeavesTheResetState := by
  intro p cs prog s hp h
  obtain ⟨csBytes, progBytes, store, mem, hcs, hprog, hstore, hmem, rfl⟩ := launch_ok h
  obtain ⟨hsize, -, hlen, rfl⟩ := loadProgram_ok hmem
  exact ⟨rfl, rfl, rfl, rfl, rfl, rfl, rfl, rfl, rfl, rfl, rfl, rfl, rfl, rfl, rfl, rfl, rfl, rfl,
    csBytes, progBytes, hcs, hprog, controlWord_loadControlStore hstore, read_programMemory hp.2.1 hsize hlen⟩

theorem loadControlStore_nil : loadControlStore [] = .ok (Vector.replicate 512 0#36) := rfl

/-- The program image of 20 zero bytes loads no byte that differs from 0. -/
theorem loadProgram_zeros :
    loadProgram Config.reference ([20#8, 0#8, 0#8, 0#8] ++ List.replicate 20 0#8) = .ok [] := rfl

/-- Settles O54: the two images load the control store and the memory of the reset state. -/
theorem resetIsTheEmptyLaunch : Obligations.ResetIsTheEmptyLaunch := by
  simp only [Obligations.ResetIsTheEmptyLaunch, launch, loadControlStore_nil, loadProgram_zeros]
  rfl

end Sys2Proof.Machine
end

section
/-! SUPPORT. Words and bytes of one memory: the lanes of a word read, and what a word write gives back lane by lane and as a
word (20_memory.md R37, R38). -/

namespace Sys2Proof.Machine

/-- Lane `k` of a word read is the byte that a fetch sees `k` addresses on. -/
theorem byteLane_readWord (m : Memory) (a : Nat) {k : Nat} (hk : k < 4) :
    byteLane (m.readWord a) k = m.read (a + k) := by
  rw [Memory.readWord, byteLane_wordOfBytes _ _ _ _ hk]
  interval_cases k <;> rfl

theorem read_writeWord_lane {m : Memory} (a : Nat) (v : Word) {k : Nat} (h : m.wf = true) (hk : k < 4) :
    (m.writeWord a v).read (a + k) = byteLane v k := by
  rw [read_writeWord _ _ _ h, if_pos ⟨Nat.le_add_right a k, Nat.add_lt_add_left hk a⟩, Nat.add_sub_cancel_left]

theorem read_writeWord_of_ne_index {m : Memory} {w x : Nat} (v : Word) (h : m.wf = true) (hx : x / 4 ≠ w) :
    (m.writeWord (4 * w) v).read x = m.read x := by
  rw [read_writeWord _ _ _ h, if_neg (by omega)]

/-- A word written is read back, because the word read has its four lanes. -/
theorem readWord_writeWord {m : Memory} (a : Nat) (v : Word) (h : m.wf = true) :
    (m.writeWord a v).readWord a = v := by
  have hlane (k : Nat) (hk : k < 4) : byteLane ((m.writeWord a v).readWord a) k = byteLane v k :=
    (byteLane_readWord _ a hk).trans (read_writeWord_lane a v h hk)
  rw [← wordOfBytes_byteLanes ((m.writeWord a v).readWord a), hlane 0 (by decide), hlane 1 (by decide),
    hlane 2 (by decide), hlane 3 (by decide), wordOfBytes_byteLanes]

/-- Settles O31: byte `p` stands `p % 4` addresses after the first byte of word index `p / 4`, and a word written is its
four lanes. -/
theorem wordsAndBytesShareOneArray : Obligations.WordsAndBytesShareOneArray := by
  refine ⟨fun m a => rfl, fun m p => ?_, fun m w v h => ⟨readWord_writeWord _ v h, fun k => ?_, fun a => ?_⟩⟩
  · have hlane := byteLane_readWord m (4 * (p / 4)) (Nat.mod_lt p (by decide))
    rw [Nat.div_add_mod] at hlane
    exact hlane.symm
  · exact read_writeWord_lane _ v h
  · exact read_writeWord_of_ne_index v h

end Sys2Proof.Machine
end

section
/-! SUPPORT. The word of a field tuple and the word of a list of rows: they pack and unpack without loss, and the rows of a
word give the word back (30_encoding.md R53, R54). -/

namespace Sys2Proof

/-! ### Fields and words -/

theorem pack_unpack (w : MicroWord) : pack (unpack w) = w := by
  apply BitVec.eq_of_getLsbD_eq
  intro k hk
  simp only [pack, unpack, BitVec.getLsbD_or, BitVec.getLsbD_shiftLeft, BitVec.getLsbD_setWidth, BitVec.getLsbD_extractLsb']
  interval_cases k <;> simp

theorem unpack_pack (f : Fields) : unpack (pack f) = f := by
  obtain ⟨bSel, mem, cMask, aluOp, shift, jump, mpcNext⟩ := f
  simp only [unpack, Fields.mk.injEq]
  refine ⟨?_, ?_, ?_, ?_, ?_, ?_, ?_⟩
  all_goals
    apply BitVec.eq_of_getLsbD_eq
    intro k hk
    simp only [pack, BitVec.getLsbD_or, BitVec.getLsbD_shiftLeft, BitVec.getLsbD_setWidth, BitVec.getLsbD_extractLsb']
    interval_cases k <;> simp

/-- Settles O1: bit by bit, the fields stand side by side in the word. -/
theorem fieldsPackAndUnpackWithoutLoss : Obligations.FieldsPackAndUnpackWithoutLoss :=
  ⟨pack_unpack, unpack_pack, fun _ => rfl⟩

/-! ### The word of a list of rows -/

@[simp] theorem encode_nil : encode [] = 0#36 := rfl

@[simp] theorem encode_cons (i : Instr) (ops : Microinstr) : encode (i :: ops) = rowMatch i ||| encode ops := rfl

theorem encode_append (xs ys : Microinstr) : encode (xs ++ ys) = encode xs ||| encode ys := by
  induction xs with
  | nil => simp
  | cons i rest ih => simp [ih, BitVec.or_assoc]

theorem rowMatch_bRow : ∀ code : BitVec 4, rowMatch (bRow code) = code.setWidth 36 := by decide

theorem rowMatch_aluRow : ∀ code : BitVec 6, rowMatch (aluRow code) = code.setWidth 36 <<< 16 := by decide

theorem rowMatch_shiftRow : ∀ code : BitVec 2, rowMatch (shiftRow code) = code.setWidth 36 <<< 22 := by decide

theorem rowMatch_mpcNext (base : Slot) : rowMatch (.mpcNext base) = base.setWidth 36 <<< 27 := rfl

theorem encode_memRows : ∀ bits : BitVec 3, encode (memRows bits) = bits.setWidth 36 <<< 4 := by decide

theorem encode_jumpRows : ∀ bits : BitVec 3, encode (jumpRows bits) = bits.setWidth 36 <<< 24 := by decide

theorem getLsbD_encode_rowIf (bit : Bool) (i : Instr) (k : Nat) :
    (encode (rowIf bit i)).getLsbD k = (bit && (rowMatch i).getLsbD k) := by
  cases bit <;> simp [rowIf]

theorem encode_cRows (bits : BitVec 9) : encode (cRows bits) = bits.setWidth 36 <<< 7 := by
  apply BitVec.eq_of_getLsbD_eq
  intro k hk
  simp only [cRows, encode_append, BitVec.getLsbD_or, getLsbD_encode_rowIf, rowMatch, BitVec.getLsbD_shiftLeft,
    BitVec.getLsbD_setWidth]
  interval_cases k <;> simp

/-- The rows of a field tuple give its word (R54). -/
theorem encode_fieldRows (f : Fields) : encode (fieldRows f) = pack f := by
  simp only [fieldRows, datapathRows, nextRows, encode_cons, encode_append, rowMatch_bRow, rowMatch_aluRow,
    rowMatch_shiftRow, rowMatch_mpcNext, encode_cRows, encode_memRows, encode_jumpRows, pack]
  generalize f.bSel.setWidth 36 = bSel, f.aluOp.setWidth 36 <<< 16 = aluOp, f.shift.setWidth 36 <<< 22 = shift,
    f.cMask.setWidth 36 <<< 7 = cMask, f.mem.setWidth 36 <<< 4 = mem, f.mpcNext.setWidth 36 <<< 27 = mpcNext,
    f.jump.setWidth 36 <<< 24 = jump
  ac_rfl

theorem encode_decode (w : MicroWord) : encode (decode w) = w :=
  (encode_fieldRows _).trans (pack_unpack w)

end Sys2Proof
end

section
/-! SUPPORT. A word holds the rows whose match it shows under their masks, because every place of the cycle has bits of its
own and holds at most one row; decoding is then the inverse of encoding (30_encoding.md R52 to R62). -/

namespace Sys2Proof

/-! ### Step order -/

theorem inStepOrder_iff (ops : Microinstr) : inStepOrder ops = true ↔ (ops.map Instr.rank).Pairwise (· < ·) := by
  rw [← List.isChain_iff_pairwise]
  induction ops using inStepOrder.induct with
  | case1 i j rest ih => simp [inStepOrder, ih]
  | case2 ops hshort =>
    match ops, hshort with
    | [], _ | [_], _ => simp [inStepOrder]
    | i :: j :: rest, hshort => exact absurd rfl (hshort i j rest)

theorem hasRank_iff {k : Nat} {ops : Microinstr} : hasRank k ops = true ↔ k ∈ ops.map Instr.rank := by
  simp [hasRank]

/-- The ranks of a microinstruction rise, and those of the four code fields are among them. -/
theorem wellFormed_iff {ops : Microinstr} : wellFormed ops = true ↔
    (ops.map Instr.rank).Pairwise (· < ·) ∧ ∀ k ∈ [0, 1, 2, 15], k ∈ ops.map Instr.rank := by
  simp [wellFormed, inStepOrder_iff, hasRank_iff, and_assoc]

/-- No two rows in step order stand at one place of the cycle. -/
theorem eq_of_rank_eq {ops : Microinstr} (hord : (ops.map Instr.rank).Pairwise (· < ·)) {i j : Instr} (hi : i ∈ ops)
    (hj : j ∈ ops) (hrank : i.rank = j.rank) : i = j :=
  List.inj_on_of_nodup_map hord.nodup hi hj hrank

/-- Rows in step order are determined by which rows they are. -/
theorem eq_of_mem_iff {xs ys : Microinstr} (hx : (xs.map Instr.rank).Pairwise (· < ·))
    (hy : (ys.map Instr.rank).Pairwise (· < ·)) (hmem : ∀ i, i ∈ xs ↔ i ∈ ys) : xs = ys := by
  have : Std.Irrefl fun i j : Instr => i.rank < j.rank := ⟨fun _ => Nat.lt_irrefl _⟩
  have : Std.Antisymm fun i j : Instr => i.rank < j.rank := ⟨fun _ _ hlt hgt => absurd hlt hgt.not_gt⟩
  exact (List.pairwise_map.1 hx).eq_of_mem_iff (List.pairwise_map.1 hy) hmem

/-! ### The rows of a word are well formed -/

theorem rank_bRow : ∀ code : BitVec 4, (bRow code).rank = 0 := by decide

theorem rank_aluRow : ∀ code : BitVec 6, (aluRow code).rank = 1 := by decide

theorem rank_shiftRow : ∀ code : BitVec 2, (shiftRow code).rank = 2 := by decide

theorem rowIf_append_sublist (bit : Bool) (i : Instr) {xs ys : Microinstr} (h : xs.Sublist ys) :
    (rowIf bit i ++ xs).Sublist (i :: ys) := by
  cases bit
  · exact h.cons i
  · exact h.cons_cons i

/-- With the bit rows whose bit is clear left out, these are the rows of a field tuple. -/
theorem fieldRows_sublist (f : Fields) : (fieldRows f).Sublist [bRow f.bSel, aluRow f.aluOp, shiftRow f.shift,
    .cMar, .cMdr, .cPc, .cSp, .cLv, .cCpp, .cTos, .cOpc, .cH, .memFetch, .memRd, .memWr,
    .mpcNext f.mpcNext, .jumpJamn, .jumpJamz, .jumpJmpc] := by
  rw [← List.append_nil (fieldRows f)]
  simp only [fieldRows, datapathRows, cRows, memRows, nextRows, jumpRows, List.cons_append, List.append_assoc]
  iterate 3 apply List.Sublist.cons_cons
  iterate 12 apply rowIf_append_sublist
  apply List.Sublist.cons_cons
  iterate 3 apply rowIf_append_sublist
  exact .slnil

theorem map_rank_fieldRows_sublist (f : Fields) : ((fieldRows f).map Instr.rank).Sublist
    [0, 1, 2, 3, 4, 5, 6, 7, 8, 9, 10, 11, 12, 13, 14, 15, 16, 17, 18] := by
  rw [← rank_bRow f.bSel, ← rank_aluRow f.aluOp, ← rank_shiftRow f.shift]
  exact (fieldRows_sublist f).map Instr.rank

theorem decode_inStepOrder (w : MicroWord) : ((decode w).map Instr.rank).Pairwise (· < ·) :=
  .sublist (map_rank_fieldRows_sublist _) (by decide)

theorem wellFormed_decode (w : MicroWord) : wellFormed (decode w) = true := by
  refine wellFormed_iff.2 ⟨decode_inStepOrder w, ?_⟩
  simpa using ⟨⟨_, bRow_mem_decode w, rank_bRow _⟩, ⟨_, aluRow_mem_decode w, rank_aluRow _⟩,
    ⟨_, shiftRow_mem_decode w, rank_shiftRow _⟩, ⟨_, mpcNext_mem_decode w, rfl⟩⟩

/-! ### Masks -/

/-- The bits of a word that belong to the rows at place `k` of the cycle (30_encoding.md R52). -/
def rankMask (k : Nat) : MicroWord :=
  if k = 0 then 0x00000000F#36
  else if k = 1 then 0x0003F0000#36
  else if k = 2 then 0x000C00000#36
  else if k < 12 then 0x000000080#36 <<< (k - 3)
  else if k < 15 then 0x000000010#36 <<< (k - 12)
  else if k = 15 then 0xFF8000000#36
  else 0x001000000#36 <<< (k - 16)

theorem rankMask_and_rankMask : ∀ k < 19, ∀ l < 19, k ≠ l → rankMask k &&& rankMask l = 0#36 := by decide

theorem rank_lt (i : Instr) : i.rank < 19 := by
  cases i <;> simp [Instr.rank]

theorem rowMask_eq_rankMask (i : Instr) : rowMask i = rankMask i.rank := by
  cases i <;> rfl

/-- A row sets no bit outside its mask. -/
theorem rowMatch_and_rowMask (i : Instr) : rowMatch i &&& rowMask i = rowMatch i := by
  cases i with
  | mpcNext base =>
    apply BitVec.eq_of_getLsbD_eq
    intro k hk
    simp only [rowMatch, rowMask, BitVec.getLsbD_and, BitVec.getLsbD_shiftLeft]
    interval_cases k <;> simp
  | _ => rfl

/-- Rows at different places of the cycle share no bit of the word. -/
theorem rowMatch_and_rowMask_of_rank_ne {i j : Instr} (h : i.rank ≠ j.rank) : rowMatch i &&& rowMask j = 0#36 := by
  rw [← rowMatch_and_rowMask i, BitVec.and_assoc, rowMask_eq_rankMask, rowMask_eq_rankMask,
    rankMask_and_rankMask _ (rank_lt i) _ (rank_lt j) h, BitVec.and_zero]

/-- A bit row sets its bit. -/
theorem rowMatch_ne_zero_of_bit_row {i : Instr} (h : i.rank ∉ [0, 1, 2, 15]) : rowMatch i ≠ 0#36 := by
  cases i <;> simp [Instr.rank] at h <;> decide

theorem mem_decode_rowMatch (i : Instr) : i ∈ decode (rowMatch i) := by
  cases i with
  | mpcNext base => exact Laws.RowOfWord.mpcNext base
  | _ => decide

/-- Rows of one place of the cycle differ in their match. -/
theorem eq_of_rowMatch_eq {i j : Instr} (hrank : i.rank = j.rank) (hmatch : rowMatch i = rowMatch j) : i = j :=
  eq_of_rank_eq (decode_inStepOrder _) (mem_decode_rowMatch i) (hmatch ▸ mem_decode_rowMatch j) hrank

/-! ### The rows of a word, read off under the masks -/

theorem encode_and_rowMask_of_no_row {i : Instr} {ops : Microinstr} (h : i.rank ∉ ops.map Instr.rank) :
    encode ops &&& rowMask i = 0#36 := by
  induction ops with
  | nil => simp
  | cons j rest ih =>
    rw [List.map_cons, List.mem_cons, not_or] at h
    obtain ⟨hne, hrest⟩ := h
    simp [BitVec.and_or_distrib_right, rowMatch_and_rowMask_of_rank_ne (Ne.symm hne), ih hrest]

theorem encode_and_rowMask_of_mem {i : Instr} {ops : Microinstr} (hord : (ops.map Instr.rank).Pairwise (· < ·))
    (hi : i ∈ ops) : encode ops &&& rowMask i = rowMatch i := by
  induction ops with
  | nil => cases hi
  | cons j rest ih =>
    rw [List.map_cons, List.pairwise_cons] at hord
    obtain ⟨hlater, hrest⟩ := hord
    rw [encode_cons, BitVec.and_or_distrib_right]
    rcases List.mem_cons.1 hi with rfl | hi
    · rw [encode_and_rowMask_of_no_row fun hsame => (hlater _ hsame).false, rowMatch_and_rowMask, BitVec.or_zero]
    · have hne : j.rank ≠ i.rank := (hlater _ (List.mem_map_of_mem hi)).ne
      rw [rowMatch_and_rowMask_of_rank_ne hne, ih hrest hi, BitVec.zero_or]

/-- A whole microinstruction holds a row exactly when its word agrees with the row's match under the row's mask: another
row at the row's place would show there, and so would none, since one row of each code field stands in it. -/
theorem mem_iff_encode_and_rowMask {ops : Microinstr} (hwf : wellFormed ops = true) (i : Instr) :
    i ∈ ops ↔ encode ops &&& rowMask i = rowMatch i := by
  obtain ⟨hord, hcode⟩ := wellFormed_iff.1 hwf
  refine ⟨encode_and_rowMask_of_mem hord, fun hagree => ?_⟩
  by_cases hplace : i.rank ∈ ops.map Instr.rank
  · obtain ⟨j, hj, hrank⟩ := List.mem_map.1 hplace
    have hmatch : rowMatch j = rowMatch i := by
      rw [← encode_and_rowMask_of_mem hord hj, ← hagree, rowMask_eq_rankMask, rowMask_eq_rankMask, hrank]
    exact eq_of_rowMatch_eq hrank hmatch ▸ hj
  · rw [encode_and_rowMask_of_no_row hplace] at hagree
    exact absurd hagree.symm (rowMatch_ne_zero_of_bit_row fun hmem => hplace (hcode _ hmem))

/-- Settles O3: a word is the word of the microinstruction decoded from it. -/
theorem decoderReadsARowWhereItsMaskMatches : Obligations.DecoderReadsARowWhereItsMaskMatches := by
  intro i w
  rw [mem_iff_encode_and_rowMask (wellFormed_decode w), encode_decode]

/-- Settles O2: the rows decoded from the word of a microinstruction are the microinstruction's, since the masks read the
same rows from it, and both lists stand in step order. -/
theorem decodeEncodeRoundTrip : Obligations.DecodeEncodeRoundTrip := by
  refine ⟨fun ops hwf => ?_, fun w => ⟨wellFormed_decode w, encode_decode w⟩⟩
  refine eq_of_mem_iff (decode_inStepOrder _) (wellFormed_iff.1 hwf).1 fun i => ?_
  rw [mem_iff_encode_and_rowMask hwf, ← decoderReadsARowWhereItsMaskMatches]

/-- Settles O5: each word is evaluated. -/
theorem specWordsDecodeToTheirRows : Obligations.SpecWordsDecodeToTheirRows :=
  ⟨by decide, by decide, by decide, by decide, by decide, by decide, by decide⟩

end Sys2Proof
end

section
/-! SUPPORT. The record of a word, and the row that a word of the opcode table is read as (30_encoding.md R55;
log entry 5). -/

namespace Sys2Proof

/-! ### Records -/

theorem recordWord_lanes (v : BitVec 64) :
    recordWord (v.extractLsb' 0 8) (v.extractLsb' 8 8) (v.extractLsb' 16 8) (v.extractLsb' 24 8) (v.extractLsb' 32 8)
      (v.extractLsb' 40 8) (v.extractLsb' 48 8) (v.extractLsb' 56 8) = v.setWidth 36 := by
  apply BitVec.eq_of_getLsbD_eq
  intro k hk
  simp only [recordWord, BitVec.getLsbD_setWidth, BitVec.getLsbD_or, BitVec.getLsbD_shiftLeft, BitVec.getLsbD_extractLsb']
  interval_cases k <;> simp

/-- The bytes of a record give back its low 36 bits (R55). -/
theorem decodeRecord_recordOf (v : BitVec 64) (rest : List Byte) :
    decodeRecord (recordOf v ++ rest) = .ok (decode (v.setWidth 36), rest) := by
  rw [← recordWord_lanes]
  rfl

/-! ### The row of a table word -/

/-- Where only one of the rows of a word sets a bit, that row is the word's leading row. -/
theorem leadRow_eq {nbits : Nat} {w : MicroWord} {i : Instr} (hi : i ∈ decode w) (hmatch : rowMatch i ≠ 0#36)
    (honly : ∀ j ∈ decode w, rowMatch j ≠ 0#36 → j = i) : leadRow nbits (unpack w) = i := by
  unfold leadRow
  generalize hset : List.filter _ _ = setters
  have hmem (j : Instr) : j ∈ setters ↔ j ∈ decode w ∧ rowMatch j ≠ 0#36 := by
    rw [← hset]
    simp only [decode, fieldRows, datapathRows, nextRows, List.mem_filter, List.mem_append, List.mem_cons, bne_iff_ne,
      List.not_mem_nil, false_or, or_assoc, or_comm, or_left_comm]
  dsimp only
  split
  next j hlast =>
    obtain ⟨hj, hjmatch⟩ := (hmem j).1 (List.mem_of_getLast? hlast)
    exact honly j hj hjmatch
  next hlast =>
    rw [List.getLast?_eq_none_iff.1 hlast] at hmem
    exact absurd ((hmem i).2 ⟨hi, hmatch⟩) List.not_mem_nil

/-- In a row's own word no other row sets a bit. -/
theorem eq_of_mem_decode_rowMatch {i j : Instr} (hj : j ∈ decode (rowMatch i)) (hmatch : rowMatch j ≠ 0#36) : j = i := by
  refine eq_of_rank_eq (decode_inStepOrder _) hj (mem_decode_rowMatch i) (by_contra fun hne => hmatch ?_)
  rw [← (decoderReadsARowWhereItsMaskMatches j _).1 hj, rowMatch_and_rowMask_of_rank_ne (Ne.symm hne)]

theorem decodeTableWord_toNat {nbits : Nat} (hbits : 36 ≤ nbits) (w : MicroWord) : decodeTableWord nbits w.toNat =
    if leadRow nbits (unpack w) ∈ decode w then some (leadRow nbits (unpack w)) else none := by
  have hword : BitVec.ofNat 36 (w.toNat % 2 ^ nbits) = w := by
    rw [Nat.mod_eq_of_lt (w.isLt.trans_le (Nat.pow_le_pow_right (by decide) hbits)), BitVec.ofNat_toNat, BitVec.setWidth_eq]
  have hrecord := decodeRecord_recordOf (w.setWidth 64) []
  rw [List.append_nil, BitVec.setWidth_setWidth_of_le _ (by decide), BitVec.setWidth_eq] at hrecord
  simp only [decodeTableWord, hword, hrecord]

/-- Settles O6: of the rows in a row's own word, that row alone sets a bit. -/
theorem tableWordsReadTheirRow : Obligations.TableWordsReadTheirRow := by
  intro i hmatch
  have hlead : leadRow 40 (unpack (rowMatch i)) = i :=
    leadRow_eq (mem_decode_rowMatch i) hmatch fun j => eq_of_mem_decode_rowMatch
  rw [decodeTableWord_toNat (by decide), hlead, if_pos (mem_decode_rowMatch i)]

end Sys2Proof
end

section
/-! SUPPORT. What the control store holds of a record and past the last record, and the cycle of the all-zero word
(30_encoding.md R55, R65). -/

namespace Sys2Proof.Machine

/-- Settles O4: the one record of the image goes to slot 0. -/
theorem recordBitsAbove35AreIgnored : Obligations.RecordBitsAbove35AreIgnored := by
  refine ⟨decodeRecord_recordOf, fun v => ?_⟩
  have hload : loadControlStore (recordOf v) = .ok (loadRecords (Vector.replicate 512 0#36) 0 (recordOf v)) :=
    if_neg (by simp [recordOf, Config.recordBytes, Config.slots])
  exact ⟨_, hload, (controlWord_loadControlStore hload 0#9).trans (recordWord_lanes v)⟩

/-- The all-zero word names no destination, no memory request and no jump; its ALU code is invalid and takes CL. -/
theorem cycleResult_of_zero_word {s : State} (hmbr : s.mbr ≠ 0xFF#8) (hword : controlWord s.cs s.mpc = 0#36) :
    cycleResult s = { s with
      mir := 0#36, mpc := 0#9, z := s.cl == 0#32, n := s.cl != 0#32
      status := if inBounds s then .running else .haltedFault
      trace := s.trace ++ .badAlu 0#6 s.mpc :: (if inBounds s then [] else [.bounds (pcOk s) (marOk s) s.pc s.mar s.mpc])
      busB := 0#32, aluR := 0#32, faultPending := false } := by
  have hfields : fieldsAt s = unpack 0#36 := by rw [fieldsAt, hword]
  have hmask (bit : Nat) (c old : Word) : writtenBack (unpack 0#36) bit c old = old :=
    writtenBack_of_clear BitVec.getLsbD_zero
  have hmem (bit : Nat) : (unpack 0#36).mem.getLsbD bit = false := BitVec.getLsbD_zero
  have halu : aluAt s = s.cl := by rw [aluAt, hfields]; rfl
  have hbus : cBusAt s = s.cl := by rw [cBusAt, hfields, halu]; rfl
  have hwarn : warningsOf (unpack 0#36) s.mpc = [.badAlu 0#6 s.mpc] := rfl
  have hnext : nextAddress (unpack 0#36) (s.cl != 0#32) (s.cl == 0#32) s.mbr = 0#9 := by simp [nextAddress, unpack]
  simp only [cycleResult, hfields, hmask, hmem, halu, hbus, hword, hwarn, hnext, hmbr, Bool.and_false, Bool.false_eq_true,
    if_false, List.append_nil, List.append_assoc]
  rfl

/-- Settles O44: a slot past the image keeps the 0 it began with, and the word 0 is ALU code 0 with nothing else set. -/
theorem unfilledSlotRestartsTheMicroprogram : Obligations.UnfilledSlotRestartsTheMicroprogram := by
  refine ⟨fun image cs i hload hpast => ?_, by decide, fun s hs hmbr hword => ?_⟩
  · rw [controlWord_loadControlStore hload, imageSlot, if_neg hpast.not_gt]
  · rw [step_eq_cycleResult hs, cycleResult_of_zero_word hmbr hword]

end Sys2Proof.Machine
end

section
/-! SUPPORT. The rows of the B-bus router, valid and invalid, and the events of a cycle with an invalid selector
(41_bbus_router.md). -/

namespace Sys2Proof.Machine

/-! ### What a row leaves on the bus -/

/-- Sign extension of MBR as the rule writes it, by bit 7 (41_bbus_router.md R71). -/
theorem signExtend_byte (b : Byte) :
    b.signExtend 32 = if b.getLsbD 7 then 0xFFFFFF00#32 ||| b.setWidth 32 else b.setWidth 32 := by
  revert b
  decide

/-- A valid B_SEL row changes the B bus alone. -/
theorem exec_bRow_of_valid {c : BitVec 4} (s : State) (hc : c.toNat < 9) :
    exec (bRow c) s = .next { s with busB := busValue c s } := by
  rw [exec_bRow, if_neg hc.not_ge, List.append_nil]

theorem busValue_of_invalid {c : BitVec 4} (s : State) (hc : 9 ≤ c.toNat) : busValue c s = allOnes := by
  unfold busValue
  split
  iterate 9 · omega
  · rfl

/-- An invalid B_SEL row drives all ones and records the warning (41_bbus_router.md R78). -/
theorem exec_bRow_of_invalid {c : BitVec 4} (s : State) (hc : 9 ≤ c.toNat) :
    exec (bRow c) s = .next (driveInvalidB c s) := by
  rw [exec_bRow, busValue_of_invalid s hc, if_pos hc]
  rfl

theorem runRows_bRow_of_invalid {c : BitVec 4} (s : State) (hc : 9 ≤ c.toNat) (rest : List Instr) :
    runRows (bRow c :: rest) s = runRows rest (driveInvalidB c s) := by
  rw [runRows_cons, exec_bRow_of_invalid s hc, andThen_next]

theorem allOnes_add_one : allOnes + 1#32 = 0#32 := by decide

theorem not_allOnes : ~~~allOnes = 0#32 := by decide

/-! ### The warning in a cycle -/

/-- The warning of an invalid selector comes before every other event of the cycle. -/
theorem cycleEvents_of_invalid_selector {s : State} (hsel : 9 ≤ (fieldsAt s).bSel.toNat) :
    ∃ later, cycleEvents s = .badBsel (fieldsAt s).bSel s.mpc :: later := by
  rw [cycleEvents, warningsOf, if_pos hsel]
  exact ⟨_, rfl⟩

/-! ### The obligations -/

/-- Settles O11: each row by its code, and the latch of a cycle, which holds its C bus, by the cycle as one state. -/
theorem busRowsDriveTheirRegister : Obligations.BusRowsDriveTheirRegister := by
  refine ⟨by decide, fun s => ?_, fun s hs => ⟨cycleResult s, step_eq_cycleResult hs, rfl⟩⟩
  have hrow (c : BitVec 4) (hc : c.toNat < 9) := exec_bRow_of_valid s hc
  rw [← signExtend_byte]
  exact ⟨hrow 0#4 (by decide), hrow 1#4 (by decide), hrow 2#4 (by decide), hrow 3#4 (by decide), hrow 4#4 (by decide),
    hrow 5#4 (by decide), hrow 6#4 (by decide), hrow 7#4 (by decide), hrow 8#4 (by decide)⟩

/-- Settles O12: the rows after an invalid selector run with all ones on the bus, and a cycle's first event is its
warning. -/
theorem invalidSelectorsDriveAllOnes : Obligations.InvalidSelectorsDriveAllOnes := by
  refine ⟨fun c s hc => ?_, fun s hs hsel => ?_⟩
  · simp only [runRows_bRow_of_invalid s hc]
    exact ⟨exec_bRow_of_invalid s hc, ⟨_, rfl, allOnes_add_one, beq_iff_eq.2 allOnes_add_one⟩,
      ⟨_, rfl, not_allOnes⟩, ⟨_, rfl, rfl, rfl, rfl, rfl⟩⟩
  · obtain ⟨later, hevents⟩ := cycleEvents_of_invalid_selector hsel
    exact ⟨cycleResult s, later, step_eq_cycleResult hs, by rw [cycleResult_trace, hevents]⟩

/-- Settles O13: a B_SEL row writes the B bus and the trace only, and appends no event for a valid code. -/
theorem busRowsLeaveTheRestUnchanged : Obligations.BusRowsLeaveTheRestUnchanged := by
  refine fun c s => ⟨_, exec_bRow c s, ⟨rfl, rfl, rfl, rfl, rfl, rfl, rfl, rfl, rfl⟩, rfl, rfl, ⟨rfl, rfl, rfl, rfl⟩,
    ⟨rfl, rfl⟩, rfl, fun _ => rfl, rfl, rfl, fun hc => ?_⟩
  rw [if_neg hc.not_ge, List.append_nil]

end Sys2Proof.Machine
end

section
/-! SUPPORT. The rows of the ALU and of the shifter, valid and invalid, the words they compute as numbers, and what of them a
cycle leaves (42_alu_shifter.md). -/

namespace Sys2Proof.Machine

/-! ### What an ALU row does -/

/-- A valid ALU_OP row leaves its result and the flags of it, and nothing else. -/
theorem exec_aluRow_of_valid {c : BitVec 6} (s : State) (hc : c.toNat ∈ validAluCodes) :
    exec (aluRow c) s = .next (aluResult (aluValue c s.busB s) s) := by
  rw [exec_aluRow, if_pos hc, List.append_nil]
  rfl

/-- The result of an invalid ALU code is CL, whatever stands on the B bus (R95). -/
theorem aluValue_of_invalid {c : BitVec 6} (b : Word) (s : State) (hc : c.toNat ∉ validAluCodes) :
    aluValue c b s = s.cl := by
  unfold aluValue
  split
  iterate 15 · next h => exact absurd (by rw [h]; decide) hc
  · rfl

/-- An invalid ALU_OP row takes CL and records the warning (R95, R139). -/
theorem exec_aluRow_of_invalid {c : BitVec 6} (s : State) (hc : c.toNat ∉ validAluCodes) :
    exec (aluRow c) s = .next (aluInvalid c s) := by
  rw [exec_aluRow, aluValue_of_invalid _ _ hc, if_neg hc]
  rfl

/-- The flag rule, for any result (R96). -/
theorem flags_test_for_zero (r : Word) :
    (r = 0#32 ∧ (r == 0#32) = true ∧ (r != 0#32) = false) ∨
      (r ≠ 0#32 ∧ (r == 0#32) = false ∧ (r != 0#32) = true) := by
  by_cases hr : r = 0#32
  · exact .inl ⟨hr, by simp [hr], by simp [hr]⟩
  · exact .inr ⟨hr, by simp [hr], by simp [hr]⟩

/-! ### Words as numbers modulo 2^32 -/

/-- A result that is the number `k` modulo 2^32 is what `aluLeaves k` says. -/
theorem aluResult_eq_aluLeaves {r : Word} {k : Nat} (s : State) (h : r.toNat = k % 2 ^ 32) :
    aluResult r s = aluLeaves k s := by
  have hr : r = BitVec.ofNat 32 k := BitVec.eq_of_toNat_eq (by rw [h, BitVec.toNat_ofNat])
  have hz : (r == 0#32) = (k % 2 ^ 32 == 0) := by
    rw [← h, Bool.eq_iff_iff, beq_iff_eq, beq_iff_eq, ← BitVec.toNat_inj]
    rfl
  rw [aluLeaves, ← hr, bne, ← hz]
  rfl

/-- The left shift drops the bits that leave the word (R99). -/
theorem shiftLeft_eight_eq_ofNat (r : Word) : r <<< 8 = BitVec.ofNat 32 (r.toNat * 2 ^ 8) :=
  BitVec.eq_of_toNat_eq (by rw [BitVec.toNat_shiftLeft, BitVec.toNat_ofNat, Nat.shiftLeft_eq])

/-- The right shift is logical: it fills with zero (R100). -/
theorem ushiftRight_one_eq_ofNat (r : Word) : r >>> 1 = BitVec.ofNat 32 (r.toNat / 2) := by
  have hlt : r.toNat / 2 < 2 ^ 32 := (Nat.div_le_self _ _).trans_lt r.isLt
  apply BitVec.eq_of_toNat_eq
  rw [BitVec.toNat_ushiftRight, BitVec.toNat_ofNat, Nat.mod_eq_of_lt hlt, Nat.shiftRight_eq_div_pow, pow_one]

/-! ### What a SHIFT row does -/

/-- A valid SHIFT row drives the C bus and does nothing else. -/
theorem exec_shiftRow_of_valid {c : BitVec 2} (s : State) (hc : c ≠ 3#2) :
    exec (shiftRow c) s = .next (shiftOut (shiftValue c s.aluR) s) := by
  rw [exec_shiftRow, if_neg hc, List.append_nil]
  rfl

/-! ### What a cycle leaves of its ALU and shifter -/

theorem cycleResult_cl (s : State) : (cycleResult s).cl = cBusAt s := rfl

theorem cycleResult_z (s : State) : (cycleResult s).z = (aluAt s == 0#32) := rfl

theorem cycleResult_n (s : State) : (cycleResult s).n = (aluAt s != 0#32) := rfl

theorem cycleResult_mpc (s : State) : (cycleResult s).mpc =
    nextAddress (fieldsAt s) (cycleResult s).n (cycleResult s).z (cycleResult s).mbr := rfl

theorem aluAt_of_invalid {s : State} (hc : (fieldsAt s).aluOp.toNat ∉ validAluCodes) : aluAt s = s.cl :=
  aluValue_of_invalid _ _ hc

/-- The warnings of a cycle stand in the trace that it leaves. -/
theorem mem_cycleResult_trace {s : State} {e : Event} (he : e ∈ warningsOf (fieldsAt s) s.mpc) :
    e ∈ (cycleResult s).trace := by
  rw [cycleResult_trace, cycleEvents]
  exact List.mem_append_right _ (List.mem_append_left _ (List.mem_append_left _ he))

theorem badAlu_mem_warningsOf {f : Fields} (slot : Slot) (hc : f.aluOp.toNat ∉ validAluCodes) :
    .badAlu f.aluOp slot ∈ warningsOf f slot := by
  simp [warningsOf, hc]

theorem badShift_mem_warningsOf {f : Fields} (slot : Slot) (hc : f.shift = 3#2) :
    .badShift 3#2 slot ∈ warningsOf f slot := by
  simp [warningsOf, hc]

theorem writtenBackWords_cycleResult (s : State) : WrittenBackWords (fieldsAt s) (cBusAt s) s (cycleResult s) := by
  refine ⟨rfl, fun hrd => ?_, rfl, rfl, rfl, rfl, rfl, rfl, rfl⟩
  rw [cycleResult_mdr, hrd, Bool.and_false, if_neg Bool.false_ne_true]

/-! ### The obligations -/

/-- Settles O14: each row by its code, as a valid ALU_OP row. -/
theorem aluLogicRows : Obligations.AluLogicRows := by
  refine ⟨by decide, fun s => ?_⟩
  have hrow (c : BitVec 6) (hc : c.toNat ∈ validAluCodes) := exec_aluRow_of_valid s hc
  exact ⟨hrow 12#6 (by decide), hrow 20#6 (by decide), hrow 24#6 (by decide), hrow 26#6 (by decide), hrow 28#6 (by decide),
    hrow 44#6 (by decide)⟩

/-- Settles O15: each row by its code, and its result as a number modulo 2^32. -/
theorem aluArithmeticRows : Obligations.AluArithmeticRows := by
  refine ⟨by decide, fun s => ?_⟩
  have hrow (c : BitVec 6) (k : Nat) (hc : c.toNat ∈ validAluCodes) (hk : (aluValue c s.busB s).toNat = k % 2 ^ 32) :
      exec (aluRow c) s = .next (aluLeaves k s) := by
    rw [exec_aluRow_of_valid s hc, aluResult_eq_aluLeaves s hk]
  refine ⟨hrow 53#6 _ (by decide) ?_, hrow 54#6 _ (by decide) ?_, hrow 57#6 _ (by decide) ?_, hrow 59#6 _ (by decide) ?_,
    hrow 60#6 _ (by decide) ?_, hrow 61#6 _ (by decide) ?_, hrow 63#6 _ (by decide) ?_⟩
  · exact BitVec.toNat_add s.busB 1#32
  · exact (BitVec.toNat_sub s.busB 1#32).trans (by rw [Nat.add_comm]; rfl)
  · exact BitVec.toNat_add s.h 1#32
  · exact BitVec.toNat_neg s.h
  · exact BitVec.toNat_add s.h s.busB
  · exact (BitVec.toNat_add (s.h + s.busB) 1#32).trans (by rw [BitVec.toNat_add, Nat.mod_add_mod]; rfl)
  · exact (BitVec.toNat_sub s.busB s.h).trans (by rw [Nat.add_comm])

/-- Settles O16: the two rows are valid ALU_OP rows whose result is a constant, which the shift rows then shift. -/
theorem aluConstantRows : Obligations.AluConstantRows := by
  refine ⟨by decide, fun s => ⟨exec_aluRow_of_valid (c := 17#6) s (by decide),
    exec_aluRow_of_valid (c := 18#6) s (by decide), ⟨_, rfl, ?_, rfl, rfl⟩, ⟨_, rfl, ?_, rfl, rfl⟩, ⟨_, rfl, ?_⟩⟩⟩
  · change 1#32 <<< 8 = 0x100#32
    decide
  · change 1#32 >>> 1 = 0#32
    decide
  · change 0xFFFFFFFF#32 >>> 1 = 0x7FFFFFFF#32
    decide

/-- Settles O17: an invalid code has CL as its value, in the row and in the cycle. -/
theorem invalidAluCodesTakeTheLatch : Obligations.InvalidAluCodesTakeTheLatch := by
  refine ⟨fun c s => exec_aluRow_of_invalid s, fun s hs hc => ?_, rfl⟩
  have halu : aluAt s = s.cl := aluAt_of_invalid hc
  refine ⟨cycleResult s, step_eq_cycleResult hs, ?_, ?_, ?_, mem_cycleResult_trace (badAlu_mem_warningsOf _ hc)⟩
  · rw [cycleResult_cl, cBusAt, halu]
  · rw [cycleResult_z, halu]
  · rw [cycleResult_n, halu]

/-- Settles O18: row and cycle set both flags from one result, to which the flag rule applies. -/
theorem flagsTestTheAluResultForZero : Obligations.FlagsTestTheAluResultForZero :=
  ⟨fun c s => ⟨_, exec_aluRow c s, flags_test_for_zero _⟩,
    fun s hs => ⟨cycleResult s, step_eq_cycleResult hs, flags_test_for_zero (aluAt s), cycleResult_mpc s⟩⟩

/-- Settles O19: an ALU_OP row writes the result, the flags and the trace only, and appends no event for a valid code. -/
theorem aluRowsLeaveTheRestUnchanged : Obligations.AluRowsLeaveTheRestUnchanged := by
  refine fun c s => ⟨_, exec_aluRow c s, ⟨rfl, rfl, rfl, rfl, rfl, rfl, rfl, rfl, rfl⟩, rfl, rfl, ⟨rfl, rfl, rfl, rfl⟩,
    rfl, fun _ => rfl, rfl, rfl, fun hc => ?_⟩
  rw [if_pos hc, List.append_nil]

/-- Settles O20: the two shifts as numbers, in the rows and in the C bus of a cycle. -/
theorem shiftRowsDriveTheCBus : Obligations.ShiftRowsDriveTheCBus := by
  refine ⟨by decide, fun s => ?_, fun s hs => ?_⟩
  · rw [← shiftLeft_eight_eq_ofNat, ← ushiftRight_one_eq_ofNat]
    exact ⟨exec_shiftRow_of_valid (c := 0#2) s (by decide), exec_shiftRow_of_valid (c := 1#2) s (by decide),
      exec_shiftRow_of_valid (c := 2#2) s (by decide), exec_shiftRow 3#2 s⟩
  · rw [← shiftLeft_eight_eq_ofNat, ← ushiftRight_one_eq_ofNat]
    have hcl (c : BitVec 2) (hc : (fieldsAt s).shift = c) : (cycleResult s).cl = shiftValue c (aluAt s) := by
      rw [cycleResult_cl, cBusAt, hc]
    exact ⟨cycleResult s, step_eq_cycleResult hs, cycleResult_z s, cycleResult_n s, hcl 0#2, hcl 1#2, hcl 2#2,
      fun hc => ⟨hcl 3#2 hc, mem_cycleResult_trace (badShift_mem_warningsOf _ hc)⟩⟩

/-- Settles O21: a SHIFT row writes CL and the trace only, and appends no event for a valid code. -/
theorem shiftRowsLeaveTheRestUnchanged : Obligations.ShiftRowsLeaveTheRestUnchanged := by
  refine fun c s => ⟨_, exec_shiftRow c s, ⟨rfl, rfl, rfl, rfl, rfl, rfl, rfl, rfl, rfl⟩, rfl, rfl, ⟨rfl, rfl, rfl, rfl⟩,
    ⟨rfl, rfl⟩, fun _ => rfl, ⟨rfl, rfl, rfl⟩, fun hc => ?_⟩
  rw [if_neg hc, List.append_nil]

/-- Settles O22: CL of the cycle as one state is its C bus, and an invalid ALU code of the next cycle takes CL. -/
theorem latchCarriesTheCBusToTheNextCycle : Obligations.LatchCarriesTheCBusToTheNextCycle :=
  fun s hs => ⟨cycleResult s, step_eq_cycleResult hs, cycleResult_cl s, writtenBackWords_cycleResult s,
    fun hc => (aluAt_of_invalid hc).trans (cycleResult_cl s)⟩

end Sys2Proof.Machine
end

section
/-! SUPPORT. The write-back step for any mask, and the registers that a mask of zero leaves (43_cbus_writeback.md). -/

namespace Sys2Proof.Machine

/-- The fields of a microinstruction that only names the destinations `mask`. -/
def destinationFields (mask : BitVec 9) : Fields := { unpack 0#36 with cMask := mask }

/-- The rows of any mask, with no microinstruction around it, are one write-back of CL (R104). -/
theorem runRows_cRows_mask (mask : BitVec 9) (s : State) :
    runRows (cRows mask) s = .next (writeBack (destinationFields mask) s.cl s) :=
  runRows_cRows (destinationFields mask) s

/-- A mask of zero selects no register. -/
theorem writtenBack_of_mask_zero {f : Fields} (h : f.cMask = 0#9) (bit : Nat) (c old : Word) :
    writtenBack f bit c old = old :=
  writtenBack_of_clear (by rw [h, BitVec.getLsbD_zero])

/-- Settles O25: the rows of a mask are one write-back, and in a cycle it is that of the C bus. -/
theorem writeBackFollowsTheMask : Obligations.WriteBackFollowsTheMask := by
  refine ⟨runRows_cRows_mask, fun s hs =>
    ⟨cycleResult s, step_eq_cycleResult hs, writtenBackWords_cycleResult s, fun hmask => ?_⟩⟩
  have hwords := writtenBackWords_cycleResult s
  simp only [WrittenBackWords, writtenBack_of_mask_zero hmask] at hwords
  exact hwords

/-- Settles O26: a write-back writes the nine word registers only. -/
theorem writeBackRowsLeaveTheRestUnchanged : Obligations.WriteBackRowsLeaveTheRestUnchanged :=
  fun mask s => ⟨_, runRows_cRows_mask mask s, ⟨rfl, rfl⟩, rfl, rfl, ⟨rfl, rfl, rfl, rfl⟩, rfl, fun _ => rfl, rfl,
    ⟨rfl, rfl, rfl⟩⟩

/-- Settles O24: each mask of one bit gives its row, whose meaning reads the C bus from CL. -/
theorem writeBackRowsCopyTheCBus : Obligations.WriteBackRowsCopyTheCBus :=
  ⟨by decide, fun _ => ⟨rfl, rfl, rfl, rfl, rfl, rfl, rfl, rfl, rfl⟩⟩

end Sys2Proof.Machine
end

section
/-! SUPPORT. The rows of the memory unit in bounds and out of bounds, and a cycle whose bounds check fails
(44_memory_unit.md). -/

namespace Sys2Proof.Machine

/-! ### A MEM row where the bounds check fails -/

theorem inBounds_eq_false_iff (s : State) : inBounds s = false ↔ s.cap ≤ s.pc.toNat ∨ s.cap ≤ 4 * s.mar.toNat := by
  rw [← Bool.not_eq_true, inBounds_iff, not_and_or, not_lt, not_lt]

theorem memRow_cases {i : Instr} (hi : i ∈ [Instr.memFetch, .memRd, .memWr]) :
    i = .memFetch ∨ i = .memRd ∨ i = .memWr := by simpa using hi

/-- Out of bounds a MEM row raises the fault, whatever it would have accessed (R114, R115). -/
theorem exec_memRow_of_not_inBounds {i : Instr} {s : State} (hi : i ∈ [Instr.memFetch, .memRd, .memWr])
    (h : inBounds s = false) : exec i s = .next (raiseBounds s) := by
  rcases memRow_cases hi with rfl | rfl | rfl <;> exact congrArg Host.Outcome.next (memoryAccess_of_not_inBounds h)

theorem raiseBounds_of_not_pending {s : State} (h : s.faultPending = false) :
    raiseBounds s = { s with faultPending := true, trace := s.trace ++ [boundsEvent s] } := by
  rw [raiseBounds, h]
  rfl

/-! ### Bytes that a word write leaves -/

theorem read_writeWord_of_outside {m : Memory} {a x : Nat} (v : Word) (h : m.wf = true) (hx : ¬(a ≤ x ∧ x < a + 4)) :
    (m.writeWord a v).read x = m.read x := by
  rw [read_writeWord _ _ _ h, if_neg hx]

/-- A word written back where it was read leaves every byte as it was: each lane is the byte it was read from. -/
theorem read_writeWord_readWord {m : Memory} (a x : Nat) (h : m.wf = true) :
    (m.writeWord a (m.readWord a)).read x = m.read x := by
  by_cases hx : a ≤ x ∧ x < a + 4
  · obtain ⟨k, rfl⟩ := Nat.exists_eq_add_of_le hx.1
    have hk : k < 4 := by omega
    rw [read_writeWord_lane a _ h hk, byteLane_readWord m a hk]
  · exact read_writeWord_of_outside _ h hx

/-! ### A cycle by the outcome of its bounds check -/

theorem cycleResult_mbr_of_not_inBounds {s : State} (h : inBounds (cycleResult s) = false) :
    (cycleResult s).mbr = s.mbr := by
  rw [cycleResult_mbr, h, Bool.false_and, if_neg Bool.false_ne_true]

theorem cycleResult_mdr_of_not_inBounds {s : State} (h : inBounds (cycleResult s) = false) :
    (cycleResult s).mdr = writtenBack (fieldsAt s) 1 (cBusAt s) s.mdr := by
  rw [cycleResult_mdr, h, Bool.false_and, if_neg Bool.false_ne_true]

theorem cycleResult_mem_of_not_inBounds {s : State} (h : inBounds (cycleResult s) = false) :
    (cycleResult s).mem = s.mem := by
  rw [cycleResult_mem, h, Bool.false_and, if_neg Bool.false_ne_true]

/-- A cycle without a sentinel at its start halts with a fault exactly where its bounds check fails
(46_cycle_engine.md R132). -/
theorem cycleResult_status_eq_haltedFault_iff {s : State} (hmbr : s.mbr ≠ 0xFF#8) :
    (cycleResult s).status = .haltedFault ↔ inBounds (cycleResult s) = false := by
  rw [cycleResult_status]
  by_cases hff : (cycleResult s).mbr = 0xFF#8
  · simp [hff, inBounds_of_cycleResult_mbr_eq hmbr hff]
  · cases inBounds (cycleResult s) <;> simp [hff]

/-- Out of bounds, a cycle without a sentinel at its start appends its warnings and one BOUNDS event. -/
theorem cycleEvents_of_not_inBounds {s : State} (hmbr : s.mbr ≠ 0xFF#8) (h : inBounds (cycleResult s) = false) :
    cycleEvents s = warningsOf (fieldsAt s) s.mpc ++
      [.bounds (pcOk (cycleResult s)) (marOk (cycleResult s)) (cycleResult s).pc (cycleResult s).mar s.mpc] := by
  have hff : (cycleResult s).mbr ≠ 0xFF#8 := by rwa [cycleResult_mbr_of_not_inBounds h]
  rw [cycleEvents, h, if_neg Bool.false_ne_true, if_neg hff, List.append_nil]

theorem eventCode_ne_bounds_of_mem_warningsOf {f : Fields} {slot : Slot} {e : Event} (he : e ∈ warningsOf f slot) :
    eventCode e ≠ 16 := by
  have hwarning : e = .badBsel f.bSel slot ∨ e = .badAlu f.aluOp slot ∨ e = .badShift f.shift slot := by
    simp only [warningsOf, List.mem_append, List.mem_ite_nil_left, List.mem_ite_nil_right, List.mem_singleton] at he
    tauto
  rcases hwarning with rfl | rfl | rfl <;> simp [eventCode]

/-- In bounds, a cycle appends its warnings and at most the sentinel's event. -/
theorem eventCode_ne_bounds_of_mem_cycleEvents {s : State} (h : inBounds (cycleResult s) = true) {e : Event}
    (he : e ∈ cycleEvents s) : eventCode e ≠ 16 := by
  rw [cycleEvents, h, if_pos rfl, List.append_nil, List.mem_append] at he
  rcases he with hwarning | hsentinel
  · exact eventCode_ne_bounds_of_mem_warningsOf hwarning
  · obtain ⟨-, rfl⟩ : _ ∧ e = _ := by
      simpa only [List.mem_ite_nil_right, List.mem_singleton] using hsentinel
    simp [eventCode]

/-! ### The obligations -/

/-- Settles O29, by the outcome of the bounds check: out of bounds a row raises the fault, in bounds it makes one access. -/
theorem memoryRowsLeaveTheRestUnchanged : Obligations.MemoryRowsLeaveTheRestUnchanged := by
  intro s i hi hwf
  cases hin : inBounds s with
  | false =>
    refine ⟨raiseBounds s, exec_memRow_of_not_inBounds hi hin, ?_⟩
    simp [SameMemory, SameControl, SameFlags]
  | true =>
    rcases memRow_cases hi with rfl | rfl | rfl
    · refine ⟨fetchByte s, exec_memFetch hin, ?_⟩
      simp [SameMemory, SameControl, SameFlags]
    · refine ⟨loadWord s, exec_memRd hin, ?_⟩
      simp [SameMemory, SameControl, SameFlags]
    · refine ⟨storeWord s, exec_memWr hin, ?_⟩
      have houtside (a : Nat) : ¬(4 * s.mar.toNat ≤ a ∧ a < 4 * s.mar.toNat + 4) →
          (storeWord s).mem.read a = s.mem.read a := read_writeWord_of_outside s.mdr hwf
      exact ⟨rfl, rfl, rfl, rfl, rfl, rfl, rfl, rfl, fun _ => rfl, fun _ => rfl, fun hne => absurd rfl hne, houtside, rfl,
        ⟨rfl, rfl, rfl, rfl⟩, ⟨rfl, rfl⟩, rfl, rfl, rfl, fun _ => ⟨rfl, rfl⟩⟩

/-- Settles O30: the rows of a MEM field in bounds are one update of the state, in which the word written is the word read
where both are asked for. -/
theorem sameCycleAccessesAreFetchReadWrite : Obligations.SameCycleAccessesAreFetchReadWrite := by
  intro bits s hin hwf
  refine ⟨_, runRows_memRows bits hin, rfl, rfl, fun hwr => ?_, fun hwr => ?_, fun hrd a => ?_⟩
  · simp only [hwr, Bool.false_eq_true, if_false]
  · simp only [hwr, if_true]
    rfl
  · simp only [hrd, if_true]
    split
    · exact read_writeWord_readWord _ a hwf
    · rfl

/-- Settles O33, from the cycle as one state, by the outcome of its bounds check. -/
theorem boundsFaultHaltsTheCycle : Obligations.BoundsFaultHaltsTheCycle := by
  intro s hs hmbr
  refine ⟨cycleResult s, step_eq_cycleResult hs, fun hin => ?_, fun hin => ⟨fun hfault => ?_, ?_⟩⟩
  · refine ⟨(cycleResult_status_eq_haltedFault_iff hmbr).2 hin, cycleResult_mem_of_not_inBounds hin,
      cycleResult_mbr_of_not_inBounds hin, cycleResult_mdr_of_not_inBounds hin, writtenBackWords_cycleResult s,
      cycleResult_cl s, cycleResult_z s, cycleResult_n s, ?_⟩
    rw [cycleResult_trace, cycleEvents_of_not_inBounds hmbr hin, List.append_assoc]
  · rw [(cycleResult_status_eq_haltedFault_iff hmbr).1 hfault] at hin
    cases hin
  · exact ⟨cycleEvents s, cycleResult_trace s, fun e => eventCode_ne_bounds_of_mem_cycleEvents hin⟩

/-- Settles O27: each bit gives its row, which makes its access in bounds. -/
theorem memoryRowsAccessInBounds : Obligations.MemoryRowsAccessInBounds := by
  refine ⟨by decide, fun s hpc hmar => ?_⟩
  have hin : inBounds s = true := (inBounds_iff s).2 ⟨hpc, hmar⟩
  exact ⟨exec_memFetch hin, exec_memRd hin, exec_memWr hin⟩

/-- Settles O28: out of bounds a row raises the fault, which does nothing where the fault is pending. -/
theorem memoryRowsFaultOutOfBounds : Obligations.MemoryRowsFaultOutOfBounds := by
  intro s i hi hout
  rw [exec_memRow_of_not_inBounds hi ((inBounds_eq_false_iff s).2 hout)]
  refine ⟨fun hp => ?_, fun hp => ?_⟩
  · rw [raiseBounds_of_pending hp]
  · rw [raiseBounds_of_not_pending hp, boundsEvent]

end Sys2Proof.Machine
end

section
/-! SUPPORT. The four rows of the next-address unit, and the next address by the JUMP bits: with none of them the base, with
both condition bits the high slot (45_next_address.md). -/

namespace Sys2Proof.Machine

/-! ### The rows -/

/-- From place 15 of a microinstruction on stand the NEXT row and the JUMP rows (46_cycle_engine.md R130). -/
theorem nextRow_cases {i : Instr} (hi : 15 ≤ i.rank) :
    (∃ base, i = .mpcNext base) ∨ i = .jumpJamn ∨ i = .jumpJamz ∨ i = .jumpJmpc := by
  revert hi
  cases i <;> simp [Instr.rank]

/-- A NEXT or JUMP row writes MPC and nothing else. -/
theorem exec_nextRow {i : Instr} (hi : 15 ≤ i.rank) (s : State) : ∃ m, exec i s = .next { s with mpc := m } := by
  rcases nextRow_cases hi with ⟨base, rfl⟩ | rfl | rfl | rfl
  · exact ⟨base, rfl⟩
  · exact ⟨s.mpc ||| flagBit8 s.n, rfl⟩
  · exact ⟨s.mpc ||| flagBit8 s.z, rfl⟩
  · exact ⟨s.mpc ||| s.mbr.setWidth 9, rfl⟩

/-! ### The next address by the JUMP bits -/

/-- Without a JUMP bit the next address is the base. -/
theorem nextAddress_of_no_jump {f : Fields} (n z : Bool) (mbr : Byte) (h : f.jump = 0#3) :
    nextAddress f n z mbr = f.mpcNext := by
  simp [nextAddress, h]

/-- With JAMN and JAMZ both set, opposite flags contribute bit 8 once, whichever of them is set (R126). -/
theorem nextAddress_of_both_condition_bits {f : Fields} (z : Bool) (mbr : Byte) (hjamn : f.jump.getLsbD 0 = true)
    (hjamz : f.jump.getLsbD 1 = true) : nextAddress f (!z) z mbr =
      f.mpcNext ||| 0x100#9 ||| (if f.jump.getLsbD 2 then mbr.setWidth 9 else 0#9) := by
  cases z <;> simp [nextAddress, hjamn, hjamz]

/-- The two flags that a cycle sets are opposite (42_alu_shifter.md R96). -/
theorem cycleResult_n_eq_not_z (s : State) : (cycleResult s).n = !(cycleResult s).z := rfl

theorem cycleResult_mpc_of_both_condition_bits {s : State} (hjamn : (fieldsAt s).jump.getLsbD 0 = true)
    (hjamz : (fieldsAt s).jump.getLsbD 1 = true) : (cycleResult s).mpc = (fieldsAt s).mpcNext ||| 0x100#9 |||
      (if (fieldsAt s).jump.getLsbD 2 then (cycleResult s).mbr.setWidth 9 else 0#9) := by
  rw [cycleResult_mpc, cycleResult_n_eq_not_z, nextAddress_of_both_condition_bits _ _ hjamn hjamz]

/-! ### The obligations -/

/-- Settles O36: the rows of step 8 form the next address, and a cycle leaves it from its own flags and MBR. -/
theorem nextAddressIsTheOrOfItsParts : Obligations.NextAddressIsTheOrOfItsParts :=
  ⟨runRows_nextRows, fun s hs => ⟨cycleResult s, step_eq_cycleResult hs, cycleResult_mpc s, fun hjump =>
    (cycleResult_mpc s).trans (nextAddress_of_no_jump _ _ _ hjump)⟩⟩

/-- Settles O37: the two flags of a cycle are opposite, so one of the two condition bits always contributes. -/
theorem bothConditionBitsAlwaysTakeTheHighSlot : Obligations.BothConditionBitsAlwaysTakeTheHighSlot := by
  intro s hs hjamn hjamz
  have hmpc := cycleResult_mpc_of_both_condition_bits hjamn hjamz
  refine ⟨cycleResult s, step_eq_cycleResult hs, ?_, fun hjump => ?_⟩
  · have hbit : (0x100#9).getLsbD 8 = true := by decide
    rw [hmpc, BitVec.getLsbD_or, BitVec.getLsbD_or, hbit, Bool.or_true, Bool.true_or]
  · have hjmpc : (fieldsAt s).jump.getLsbD 2 = false := by rw [hjump]; decide
    rw [hmpc, hjmpc, if_neg Bool.false_ne_true, BitVec.or_zero]

/-- Settles O35: each JUMP bit gives its row, and each row's meaning is its update of MPC. -/
theorem nextAddressRows : Obligations.NextAddressRows :=
  ⟨by decide, fun _ => ⟨fun _ => rfl, rfl, rfl, rfl⟩⟩

/-- Settles O39: a NEXT or JUMP row writes MPC only. -/
theorem nextAddressRowsLeaveTheRestUnchanged : Obligations.NextAddressRowsLeaveTheRestUnchanged := by
  intro i s hi
  obtain ⟨m, hexec⟩ := exec_nextRow hi s
  exact ⟨_, hexec, ⟨rfl, rfl, rfl, rfl, rfl, rfl, rfl, rfl, rfl⟩, rfl, ⟨rfl, rfl, rfl, rfl⟩, ⟨rfl, rfl⟩, rfl,
    fun _ => rfl, rfl, ⟨rfl, rfl, rfl⟩⟩

end Sys2Proof.Machine
end

section
/-! SUPPORT. When a step exists, which rows it runs, the word that is placed for it, and what its termination check decides
(46_cycle_engine.md). -/

namespace Sys2Proof.Machine

/-! ### Which rows a cycle runs -/

theorem rank_lt_of_mem_cRows {bits : BitVec 9} {i : Instr} (hi : i ∈ cRows bits) : i.rank < 12 := by
  simp only [cRows, List.mem_append, mem_rowIf, or_assoc] at hi
  rcases hi with ⟨-, rfl⟩ | ⟨-, rfl⟩ | ⟨-, rfl⟩ | ⟨-, rfl⟩ | ⟨-, rfl⟩ | ⟨-, rfl⟩ | ⟨-, rfl⟩ | ⟨-, rfl⟩ | ⟨-, rfl⟩ <;> decide

/-- The rows of steps 3 to 6 stand below place 12. -/
theorem rank_lt_of_mem_datapathRows {f : Fields} {i : Instr} (hi : i ∈ datapathRows f) : i.rank < 12 := by
  simp only [datapathRows, List.mem_cons] at hi
  rcases hi with rfl | rfl | rfl | hi
  · simp [rank_bRow]
  · simp [rank_aluRow]
  · simp [rank_shiftRow]
  · exact rank_lt_of_mem_cRows hi

/-- The rows of steps 7 and 8 stand from place 12 on. -/
theorem le_rank_of_mem_memRows_append_nextRows {f : Fields} {i : Instr} (hi : i ∈ memRows f.mem ++ nextRows f) :
    12 ≤ i.rank := by
  simp only [memRows, nextRows, jumpRows, List.mem_append, List.mem_cons, mem_rowIf, or_assoc] at hi
  rcases hi with ⟨-, rfl⟩ | ⟨-, rfl⟩ | ⟨-, rfl⟩ | rfl | ⟨-, rfl⟩ | ⟨-, rfl⟩ | ⟨-, rfl⟩ <;> simp [Instr.rank]

/-- Of the rows of a word, those below place 12 are the rows of steps 3 to 6. -/
theorem decode_filter_rank_lt (w : MicroWord) :
    ((decode w).filter fun i => i.rank < 12) = datapathRows (unpack w) := by
  rw [decode, fieldRows, List.filter_append, List.filter_eq_self.2, List.filter_eq_nil_iff.2, List.append_nil]
  · intro i hi
    simpa using le_rank_of_mem_memRows_append_nextRows hi
  · intro i hi
    simpa using rank_lt_of_mem_datapathRows hi

/-- Of the rows of a word, those from place 12 on are the rows of steps 7 and 8. -/
theorem decode_filter_le_rank (w : MicroWord) :
    ((decode w).filter fun i => 12 ≤ i.rank) = memRows (unpack w).mem ++ nextRows (unpack w) := by
  rw [decode, fieldRows, List.filter_append, List.filter_eq_nil_iff.2, List.nil_append, List.filter_eq_self.2]
  · intro i hi
    simpa using le_rank_of_mem_memRows_append_nextRows hi
  · intro i hi
    simpa using rank_lt_of_mem_datapathRows hi

/-- Settles O7: the two groups of rows are those below and from place 12, and the rows of steps 7 and 8 run as one list. -/
theorem stepRunsTheDecodedMicroinstruction : Obligations.StepRunsTheDecodedMicroinstruction := by
  intro s hs
  rw [step_of_running hs, cycle, decode_filter_rank_lt, decode_filter_le_rank]
  simp only [runRows_append, andThen_assoc]

/-! ### The word placed for the next step -/

theorem controlWord_withFetchWord (s : State) (nbits w : Nat) (k : Slot) :
    controlWord (s.withFetchWord nbits w).cs k =
      if k = s.mpc then BitVec.ofNat 36 (w % 2 ^ nbits) else controlWord s.cs k := by
  simp only [controlWord, State.withFetchWord, Vector.getElem_set, BitVec.toNat_inj, eq_comm]

/-- Settles O8: of the control store the placing writes MPC's slot only, and it leaves the machine running. -/
theorem fetchWordIsWhatTheNextStepRuns : Obligations.FetchWordIsWhatTheNextStepRuns := by
  refine fun s nbits w => ⟨?_, step_of_running rfl, fun k hk => ?_, rfl⟩
  · have hword := controlWord_withFetchWord s nbits w s.mpc
    rw [if_pos rfl] at hword
    exact congrArg unpack hword
  · rw [controlWord_withFetchWord, if_neg hk]

/-! ### Where a step exists, and what it is -/

/-- Settles O9: a running machine steps to the cycle's result; a halted one answers by its status. -/
theorem stepExistsExactlyWhileRunning : Obligations.StepExistsExactlyWhileRunning :=
  fun s => ⟨fun hs => ⟨cycleResult s, step_eq_cycleResult hs⟩, fun hs => by rw [step, hs], fun hs => by rw [step, hs]⟩

/-- Settles O10: the nine steps one after another, each as one update of the state, are the cycle as one state. -/
theorem stepIsTheNineStepCycle : Obligations.StepIsTheNineStepCycle :=
  fun _ => step_eq_cycleResult

/-! ### The termination check of a cycle -/

/-- A cycle that ends with the sentinel in MBR records it last (R144). -/
theorem cycleResult_trace_getLast_of_sentinel {s : State} (h : (cycleResult s).mbr = 0xFF#8) :
    (cycleResult s).trace.getLast? = some (.haltSentinel (cycleResult s).pc s.mpc) := by
  rw [cycleResult_trace, cycleEvents, if_pos h, ← List.append_assoc, List.getLast?_concat]

/-- A cycle whose bounds check fails records what failed, whatever MBR holds (R142, R143). -/
theorem bounds_mem_cycleResult_trace {s : State} (h : inBounds (cycleResult s) = false) :
    .bounds (pcOk (cycleResult s)) (marOk (cycleResult s)) (cycleResult s).pc (cycleResult s).mar s.mpc ∈
      (cycleResult s).trace := by
  simp [cycleResult_trace, cycleEvents, h]

/-- Settles O40: the status of `cycleResult` is decided by MBR first, then by the bounds check, and its events likewise. -/
theorem terminationCheckDecidesTheStatus : Obligations.TerminationCheckDecidesTheStatus := by
  refine fun s hs => ⟨cycleResult s, step_eq_cycleResult hs, fun hff => ⟨?_, cycleResult_trace_getLast_of_sentinel hff⟩,
    fun hff hin => ⟨?_, bounds_mem_cycleResult_trace hin⟩, fun hff hin => ?_, inBounds_of_cycleResult_mbr_eq⟩
  · rw [cycleResult_status, if_pos hff]
  · rw [cycleResult_status, if_neg hff, hin, if_neg Bool.false_ne_true]
  · rw [cycleResult_status, if_neg hff, if_pos hin]

end Sys2Proof.Machine
end

section
/-! SUPPORT. What a cycle appends to the trace, and what its BOUNDS event and its sentinel say of the status it leaves
(60_exceptions.md). -/

namespace Sys2Proof.Machine

/-! ### The BOUNDS event -/

/-- A trace without a BOUNDS event stays without one exactly in a cycle whose bounds check passes (R142). -/
theorem noBoundsFault_cycleResult_iff {s : State} (hs : NoBoundsFault s) :
    NoBoundsFault (cycleResult s) ↔ inBounds (cycleResult s) = true := by
  refine ⟨fun hnone => ?_, fun hin e he => ?_⟩
  · by_contra hout
    exact hnone _ (bounds_mem_cycleResult_trace (Bool.eq_false_iff.2 hout)) rfl
  · rw [cycleResult_trace, List.mem_append] at he
    exact he.elim (hs e) (eventCode_ne_bounds_of_mem_cycleEvents hin)

/-! ### The sentinel -/

theorem cycleResult_status_eq_haltedNormal_iff (s : State) :
    (cycleResult s).status = .haltedNormal ↔ (cycleResult s).mbr = 0xFF#8 := by
  rw [cycleResult_status]
  by_cases hff : (cycleResult s).mbr = 0xFF#8
  · simp [hff]
  · cases inBounds (cycleResult s) <;> simp [hff]

/-- MBR changes only by a fetch in bounds, so a sentinel that was not there before is the byte fetched (R144). -/
theorem cycleResult_mbr_eq_sentinel_iff {s : State} (hmbr : s.mbr ≠ 0xFF#8) :
    (cycleResult s).mbr = 0xFF#8 ↔ (fieldsAt s).mem.getLsbD 0 = true ∧ inBounds (cycleResult s) = true ∧
      s.mem.read (cycleResult s).pc.toNat = 0xFF#8 := by
  rw [cycleResult_mbr]
  by_cases hfetch : (inBounds (cycleResult s) && (fieldsAt s).mem.getLsbD 0) = true
  · obtain ⟨hin, hbit⟩ := Bool.and_eq_true_iff.1 hfetch
    simp [hin, hbit]
  · rw [if_neg hfetch]
    exact ⟨fun hff => absurd hff hmbr, fun ⟨hbit, hin, _⟩ => absurd (Bool.and_eq_true_iff.2 ⟨hin, hbit⟩) hfetch⟩

/-! ### The obligations -/

/-- Settles O34: without a sentinel at its start, a cycle halts with a fault exactly where it records a BOUNDS event, that
is where its bounds check fails. -/
theorem noBoundsEventMeansNoFaultHalt : Obligations.NoBoundsEventMeansNoFaultHalt := by
  intro s t hmbr hnone hstep
  rw [eq_cycleResult_of_step hstep, noBoundsFault_cycleResult_iff hnone, Ne, cycleResult_status_eq_haltedFault_iff hmbr,
    Bool.not_eq_false]

/-- Settles O41: a cycle halts normally where it leaves the sentinel in MBR, which only a fetch in bounds puts there. -/
theorem normalHaltIsAFetchedSentinel : Obligations.NormalHaltIsAFetchedSentinel :=
  fun s hs hmbr => ⟨cycleResult s, step_eq_cycleResult hs,
    (cycleResult_status_eq_haltedNormal_iff s).trans (cycleResult_mbr_eq_sentinel_iff hmbr),
    fun hhalt => cycleResult_trace_getLast_of_sentinel ((cycleResult_status_eq_haltedNormal_iff s).1 hhalt)⟩

/-- Settles O42: the events of a cycle are its warnings, then BOUNDS, then the sentinel's; a sentinel that was not there
before is fetched in bounds. -/
theorem eventsAppearInStepOrder : Obligations.EventsAppearInStepOrder := by
  refine fun s hs => ⟨cycleResult s, step_eq_cycleResult hs, ?_, fun hmbr ⟨hout, hff⟩ => ?_⟩
  · simp only [cycleResult_trace, cycleEvents, warningsOf, List.append_assoc]
  · rw [inBounds_of_cycleResult_mbr_eq hmbr hff] at hout
    cases hout

/-- Settles O43: each code is an equation of its table. -/
theorem eventAndErrorCodes : Obligations.EventAndErrorCodes :=
  ⟨fun _ _ => rfl, fun _ _ => rfl, fun _ _ => rfl, fun _ _ _ _ _ => rfl, fun _ _ => rfl, rfl, rfl, fun _ => rfl, rfl,
    fun _ _ => rfl, fun _ => rfl, fun _ => rfl, fun _ => rfl⟩

end Sys2Proof.Machine
end

section
/-! SUPPORT. What one cycle sees of its own writes and what only the next one sees: the memory requests by the registers that
the cycle leaves, and the rows of a word read (70_reset_and_hazards.md R162 to R165). -/

namespace Sys2Proof.Machine

/-! ### The memory requests of a cycle -/

theorem cycleResult_mbr_of_fetch {s : State} (hin : inBounds (cycleResult s) = true)
    (hfetch : (fieldsAt s).mem.getLsbD 0 = true) : (cycleResult s).mbr = s.mem.read (cycleResult s).pc.toNat := by
  rw [cycleResult_mbr, hin, hfetch, Bool.and_self, if_pos rfl]

theorem cycleResult_mbr_of_no_fetch {s : State} (hfetch : (fieldsAt s).mem.getLsbD 0 = false) :
    (cycleResult s).mbr = s.mbr := by
  rw [cycleResult_mbr, hfetch, Bool.and_false, if_neg Bool.false_ne_true]

theorem cycleResult_mdr_of_read {s : State} (hin : inBounds (cycleResult s) = true)
    (hrd : (fieldsAt s).mem.getLsbD 1 = true) :
    (cycleResult s).mdr = s.mem.readWord (4 * (cycleResult s).mar.toNat) := by
  rw [cycleResult_mdr, hin, hrd, Bool.and_self, if_pos rfl, wordAddr]

theorem cycleResult_mdr_of_no_read {s : State} (hrd : (fieldsAt s).mem.getLsbD 1 = false) :
    (cycleResult s).mdr = writtenBack (fieldsAt s) 1 (cBusAt s) s.mdr := by
  rw [cycleResult_mdr, hrd, Bool.and_false, if_neg Bool.false_ne_true]

theorem cycleResult_mem_of_write {s : State} (hin : inBounds (cycleResult s) = true)
    (hwr : (fieldsAt s).mem.getLsbD 2 = true) :
    (cycleResult s).mem = s.mem.writeWord (4 * (cycleResult s).mar.toNat) (cycleResult s).mdr := by
  rw [cycleResult_mem, hin, hwr, Bool.and_self, if_pos rfl, wordAddr]

/-- A cycle whose bounds check fails ends the run, with the sentinel in MBR or without (46_cycle_engine.md R132). -/
theorem cycleResult_status_ne_running {s : State} (hout : inBounds (cycleResult s) = false) :
    (cycleResult s).status ≠ .running := by
  rw [cycleResult_status, hout]
  split <;> decide

/-! ### A word read among other rows -/

theorem runRows_memRd_cons {s : State} (rest : List Instr) (hin : inBounds s = true) :
    runRows (.memRd :: rest) s = runRows rest (loadWord s) := by
  rw [runRows_cons, exec_memRd hin, andThen_next]

/-- The rows that put MDR on the C bus leave the old MDR in CL before a word read replaces it. -/
theorem runRows_mdrToCBus (rest : List Instr) (s : State) : runRows (.bMdr :: .aluB :: .shiftNone :: rest) s =
    runRows rest (shiftOut s.mdr (aluResult s.mdr (driveB s.mdr s))) := rfl

theorem runRows_cMdr_cons (rest : List Instr) (s : State) :
    runRows (.cMdr :: rest) s = runRows rest { s with mdr := s.cl } := rfl

/-! ### The obligations -/

/-- Settles O32: the requests of the cycle as one state read the registers that it leaves. -/
theorem memoryUnitSeesTheWriteBack : Obligations.MemoryUnitSeesTheWriteBack :=
  fun s hs => ⟨cycleResult s, step_eq_cycleResult hs, rfl, rfl, fun hin =>
    ⟨cycleResult_mbr_of_fetch hin, cycleResult_mdr_of_read hin, cycleResult_mdr_of_no_read,
      cycleResult_mem_of_write hin⟩, cycleResult_status_ne_running⟩

/-- Settles O38: next address and status are read off the MBR that the cycle leaves, its C bus off the registers at its
start; the two rows drive the MBR of the state that they run in. -/
theorem fetchedByteIsSeenInItsCycleAndAfter : Obligations.FetchedByteIsSeenInItsCycleAndAfter :=
  fun s hs => ⟨cycleResult s, step_eq_cycleResult hs, fun hfetch hin => cycleResult_mbr_of_fetch hin hfetch,
    cycleResult_mbr_of_no_fetch, cycleResult_mpc s, cycleResult_status_eq_haltedNormal_iff s, cycleResult_cl s,
    exec_bRow_of_valid (c := 2#4) _ (by decide), exec_bRow_of_valid (c := 3#4) _ (by decide)⟩

/-- Settles O23: a cycle's C bus is `cBusAt` of its start; a word read follows the rows that take the old MDR and the
write-back into MDR, and comes before the word write. -/
theorem cBusComesFromTheStartOfTheCycle : Obligations.CBusComesFromTheStartOfTheCycle := by
  refine ⟨fun s hs => ⟨cycleResult s, step_eq_cycleResult hs, cycleResult_cl s, writtenBackWords_cycleResult s⟩,
    fun s => ⟨⟨_, rfl, rfl⟩, ⟨_, rfl, rfl⟩⟩, fun s hin => ⟨?_, ?_, ?_⟩⟩
  · rw [runRows_mdrToCBus]
    exact ⟨_, runRows_memRd_cons [] hin, rfl, rfl, rfl⟩
  · rw [runRows_cMdr_cons]
    exact ⟨_, runRows_memRd_cons [] hin, rfl⟩
  · rw [runRows_memRd_cons [.memWr] hin]
    exact ⟨_, exec_memWr (s := loadWord s) hin, rfl, rfl⟩

end Sys2Proof.Machine
end

section
/-! SUPPORT. The checks of a launch one after another: those of the launch itself, of the control-store image and of the
program image, each with what fails it (70_reset_and_hazards.md R154 to R159). -/

namespace Sys2Proof.Machine

/-! ### The launch by its images -/

theorem launch_missingArg (p : Config.Params) (cs : Image) : launch p cs none = .error .missingArg := rfl

theorem launch_csIo (p : Config.Params) (prog : Image) : launch p .unreadable (some prog) = .error .csIo := rfl

theorem launch_controlStore_error {csBytes : List Byte} {e : LoadError} (h : loadControlStore csBytes = .error e)
    (p : Config.Params) (prog : Image) : launch p (.bytes csBytes) (some prog) = .error e := by
  simp only [launch, h]

theorem launch_progIo {csBytes : List Byte} {store : Vector MicroWord 512} (h : loadControlStore csBytes = .ok store)
    (p : Config.Params) : launch p (.bytes csBytes) (some .unreadable) = .error .progIo := by
  simp only [launch, h]

theorem launch_program_error {csBytes progBytes : List Byte} {store : Vector MicroWord 512} {p : Config.Params}
    {e : LoadError} (hcs : loadControlStore csBytes = .ok store) (hprog : loadProgram p progBytes = .error e) :
    launch p (.bytes csBytes) (some (.bytes progBytes)) = .error e := by
  simp only [launch, hcs, hprog]

theorem launch_eq_ok {csBytes progBytes : List Byte} {store : Vector MicroWord 512} {p : Config.Params} {mem : Memory}
    (hcs : loadControlStore csBytes = .ok store) (hprog : loadProgram p progBytes = .ok mem) :
    launch p (.bytes csBytes) (some (.bytes progBytes)) =
      .ok { State.reset with cs := store, mem := mem, cap := p.cap } := by
  simp only [launch, hcs, hprog]

/-! ### The control-store image -/

theorem loadControlStore_of_whole_records {image : List Byte} (hmod : image.length % 8 = 0)
    (hcount : image.length / 8 ≤ 512) :
    loadControlStore image = .ok (loadRecords (Vector.replicate 512 0#36) 0 image) :=
  if_neg (not_or.2 ⟨not_not.2 hmod, not_lt.2 hcount⟩)

theorem loadControlStore_csFormat {image : List Byte} (h : image.length % 8 ≠ 0 ∨ 512 < image.length / 8) :
    loadControlStore image = .error (.csFormat image.length) :=
  if_pos h

/-! ### The program image -/

theorem loadProgram_of_no_size_field (p : Config.Params) {image : List Byte} (h : image.length < 4) :
    loadProgram p image = .error (.progShort image.length 4) := by
  match image, h with
  | [], _ | [_], _ | [_, _], _ | [_, _, _], _ => rfl
  | _ :: _ :: _ :: _ :: _, h => simp only [List.length_cons] at h; omega

/-- The checks of an image that holds the `size` field, in the order of R157. -/
theorem loadProgram_of_size_field (p : Config.Params) {image : List Byte} (h : 4 ≤ image.length) :
    loadProgram p image =
      if p.cap < imageSize image then .error (.progTooLarge (imageSize image))
      else if imageSize image < 20 then .error (.progSizeSmall (imageSize image))
      else if p.cap < p.origin + imageSize image - 20 then .error (.progBodyOverflow (imageSize image))
      else if image.length < 24 then .error (.progShort (image.length - 4) 20)
      else if image.length < 4 + imageSize image then
        .error (.progShort (image.length - 24) (imageSize image - 20))
      else .ok (programMemory p image) := by
  match image, h with
  | p0 :: p1 :: p2 :: p3 :: rest, _ =>
    have hsize : (wordOfBytes p0 p1 p2 p3).toNat = imageSize (p0 :: p1 :: p2 :: p3 :: rest) := toNat_wordOfBytes _ _ _ _
    have hlen : (p0 :: p1 :: p2 :: p3 :: rest).length = rest.length + 4 := rfl
    have hblock : rest.length + 4 < 24 ↔ rest.length < 20 := Nat.add_lt_add_iff_right
    have hbody (size : Nat) : rest.length + 4 < 4 + size ↔ rest.length < size := by omega
    simp only [loadProgram, hsize, hlen, hblock, hbody, Nat.add_sub_cancel, Config.initBlockBytes]
    rfl

/-! ### The obligations -/

/-- Settles O58: each check of the launch, with those before it passed. -/
theorem firstLoadErrorEndsTheLaunch : Obligations.FirstLoadErrorEndsTheLaunch :=
  fun p => ⟨launch_missingArg p, launch_csIo p, fun _ _ prog h => launch_controlStore_error h p prog,
    fun _ _ h => launch_progIo h p, fun _ _ _ _ => launch_program_error,
    fun _ _ _ _ hcs hprog => ⟨_, launch_eq_ok hcs hprog, rfl⟩⟩

/-- Settles O55: the two lengths are complements, and an image that loads fills its slots. -/
theorem controlStoreImageFillsTheSlots : Obligations.ControlStoreImageFillsTheSlots := by
  refine ⟨fun image hmod hcount => ?_, fun image => loadControlStore_csFormat, launch_csIo⟩
  have hload := loadControlStore_of_whole_records hmod hcount
  exact ⟨_, hload, controlWord_loadControlStore hload⟩

/-- Settles O56: an image that loads has passed its checks and gives `programMemory`. -/
theorem programImageFillsMemory : Obligations.ProgramImageFillsMemory := by
  intro p image m hp h
  obtain ⟨hsize, hfits, hlen, rfl⟩ := loadProgram_ok h
  exact ⟨wf_programMemory p image, read_programMemory hp.2.1 hsize hlen, programMemory_within_cap hp hfits⟩

/-- Settles O57: the first failing check picks its branch of the checks in order. -/
theorem programImageChecksInOrder : Obligations.ProgramImageChecksInOrder := by
  refine fun p image => ⟨loadProgram_of_no_size_field p, fun hfield => ?_, fun _ _ h => launch_progIo h p,
    launch_missingArg p⟩
  rw [loadProgram_of_size_field p hfield]
  refine ⟨fun hlarge => if_pos hlarge, fun hcap => ?_⟩
  rw [if_neg hcap.not_gt]
  refine ⟨fun hsmall => if_pos hsmall, fun hblock => ?_⟩
  rw [if_neg hblock.not_gt]
  refine ⟨fun hover => if_pos hover, fun hfits => ?_⟩
  rw [if_neg hfits.not_gt]
  refine ⟨fun hshort => if_pos hshort, fun hread => ?_⟩
  rw [if_neg hread.not_gt]
  exact ⟨fun hshort => if_pos hshort, fun hwhole => ⟨_, if_neg hwhole.not_gt⟩⟩

end Sys2Proof.Machine
end
